-- ==== Sys2Proof/Word.lean ====
section
/-! DEFINITION. The word types of the machine (spec/00_scope.md R13 to R16, spec/20_memory.md R200). -/

namespace Sys2Proof

/-- A 32-bit word: the addressed unit of memory and the width of every scalar register (R15). -/
abbrev Word := BitVec 32

/-- A 64-bit long word (R15). -/
abbrev Long := BitVec 64

/-- The index of a register of the primary file: ar0 to ar7, gr0 to gr7 (R31). -/
abbrev Ix := Fin 8

/-- `{hi, lo}`: the long word with `hi` in bits 63:32 (R13, R204). -/
abbrev Long.ofHalves (hi lo : Word) : Long := hi ++ lo

/-- Bits 31:0 of a long word. -/
abbrev Long.lo (v : Long) : Word := v.extractLsb' 0 32

/-- Bits 63:32 of a long word. -/
abbrev Long.hi (v : Long) : Word := v.extractLsb' 32 32

/-- Whether an address is odd (R205). -/
abbrev Word.odd (a : Word) : Bool := a.getLsbD 0

end Sys2Proof
end

