-- ==== Sys2Proof/Syntax/Parts.lean ====
section
/-! DEFINITION. The abstract syntax of spec/30_encoding.md R264: the left and right parts an instruction
is made of. Sys2Proof/Syntax.lean then has one constructor for each row of the opcode table. -/

namespace Sys2Proof

/-! ### Registers (spec/41_copy_const_addrmod_pswr.md R401) -/

/-- The special 32-bit registers of Table 5-1, and the read-only intr. `pc` can be named, and every
instruction that names it as data is refused (R42, R46). -/
inductive SpecReg
  | icc0 | ica0 | icc1 | ica1 | occ0 | oca0 | occ1 | oca1
  | t0 | t1 | pswr | lmicr | gmicr | pc | intr
  deriving DecidableEq, Repr

/-- The special pairs of Table 5-1; the register listed first is the high half (R39). -/
inductive SpecPair
  | icc0ica0 | icc1ica1 | occ0oca0 | occ1oca1 | t0t1 | pswrpc
  deriving DecidableEq, Repr

/-- A special register or a special pair. -/
inductive Special
  | one (r : SpecReg)
  | two (p : SpecPair)
  deriving DecidableEq, Repr

/-- The 32-bit halves of the vector control registers (Table 5-2); write only. -/
inductive VHalf
  | nb1l | nb1h | sbl | sbh | f1crl | f1crh | f2crl | f2crh | vrl | vrh
  deriving DecidableEq, Repr

/-- The 64-bit vector control registers (Table 5-2); write only. -/
inductive VReg
  | nb1 | sb | f1cr | f2cr | vr
  deriving DecidableEq, Repr

/-- A vector control register or a half of one. -/
inductive VCtl
  | half (h : VHalf)
  | full (v : VReg)
  deriving DecidableEq, Repr

/-- An address register or a general-purpose register. -/
inductive PReg
  | ar (n : Ix)
  | gr (n : Ix)
  deriving DecidableEq, Repr

/-- Every register name a command of the left part can hold (R401). -/
inductive Reg
  | ar (n : Ix)
  | gr (n : Ix)
  | pair (n : Ix)
  | special (x : Special)
  | vctl (c : VCtl)
  deriving DecidableEq, Repr

/-- The register of the primary file as a register name. -/
def PReg.reg : PReg → Reg
  | .ar n => .ar n
  | .gr n => .gr n

/-! ### Scalar left parts -/

/-- The scalar addressing modes (spec/20_memory.md R210). The constant of a mode that has one is the
instruction's high word (R268). -/
inductive Mode
  | const                 -- [Const]
  | ar (n : Ix)           -- [arN]
  | gr (n : Ix)           -- [grN]
  | arInc (n : Ix)        -- [arN++]
  | decAr (n : Ix)        -- [--arN]
  | arIncGr (n : Ix)      -- [arN++grN]
  | arAddGr (n : Ix)      -- [arN+=grN]
  | arSetGr (n : Ix)      -- [arN=grN]
  | arSetConst (n : Ix)   -- [arN=Const]
  | arAddConst (n : Ix)   -- [arN+=Const]
  | arSubConst (n : Ix)   -- [arN-=Const]
  deriving DecidableEq, Repr

/-- The address modification commands, types 3.1 and 3.2 (spec/41_copy_const_addrmod_pswr.md R451 to R460). -/
inductive ArOp
  | movAr (d s : Ix)      -- arD = arS addr
  | movGr (d s : Ix)      -- arD = grS addr
  | addGr (d s : Ix)      -- arD = arS+grS
  | addConst (d s : Ix)   -- arD = arS+K
  | subConst (d s : Ix)   -- arD = arS-K
  | setConst (d : Ix)     -- arD = K addr
  | inc (d : Ix)          -- arD++
  | dec (d : Ix)          -- arD--
  | incGr (d : Ix)        -- arD+=grD
  | decGr (d : Ix)        -- arD-=grD
  | incConst (d : Ix)     -- arD+=K
  | decConst (d : Ix)     -- arD-=K
  deriving DecidableEq, Repr

/-- The condition prefixes (spec/42_control_transfer.md R520) and their absence. -/
inductive Cond
  | always | eq0 | ne0 | gt | lt | ge | le | uge | ult | carry | notCarry
  | vtrue | vfalse | vgt | vlt | vge | vle
  deriving DecidableEq, Repr

/-- The targets of `goto` and `call`. -/
inductive Target
  | const                 -- K
  | ar (s : Ix)           -- arS
  | gr (s : Ix)           -- grS
  | arGr (s : Ix)         -- arS+grS
  | arAdd (s : Ix)        -- arS+K
  | arSub (s : Ix)        -- arS-K
  deriving DecidableEq, Repr

/-- The displacements of `skip` and `callrel`. -/
inductive RelTarget
  | const                 -- K
  | gr (s : Ix)           -- grS
  deriving DecidableEq, Repr

/-- What a control transfer does, with its target (R480 to R513). -/
inductive Xfer
  | goto (t : Target)
  | skip (t : RelTarget)
  | call (t : Target)
  | callrel (t : RelTarget)
  | ret
  | iret
  deriving DecidableEq, Repr

/-- The scalar left parts ("commands"), R264. The constant of a long one is kept beside it. -/
inductive SLeft
  | nul
  | nulC
  | load (dst : Reg) (m : Mode)
  | store (m : Mode) (src : Reg)
  | push (src : Reg)
  | pop (dst : Reg)
  | popDrop
  | copy (dst src : Reg)
  | setConst (dst : Reg)
  | arMod (o : ArOp)
  | pswrSet
  | pswrClear
  | xfer (c : Cond) (delayed : Bool) (x : Xfer)
  deriving DecidableEq, Repr

/-! ### Scalar right parts -/

/-- The arithmetic (type 6.3) and logical (type 6.2) functions (spec/43_scalar_alu.md). -/
inductive AluFn
  | add | inc | sub | dec | addC | addBC | subC | subBC | neg | mulFirst | mulNext
  | or | and | xor | not | notAorB | AorNotB | notAorNotB | notAandB | AandNotB | notAandNotB
  | notAxorB | AxorNotB | fls | tru | copy
  deriving DecidableEq, Repr

/-- The three forms of a scalar expression (R545, R546, R547). -/
inductive AluForm
  | std (d : Ix)
  | flagsOnly
  | noflags (d : Ix)
  deriving DecidableEq, Repr

/-- The shifts and rotates (type 6.1, R601 to R607). -/
inductive ShiftKind
  | shl | shr | sar | rol | ror | rcl | rcr
  deriving DecidableEq, Repr

/-- The scalar right parts ("operations"), R264. The amount of `C<<` and `C>>` is 1 (R606, R607). -/
inductive SRight
  | nul
  | alu (f : AluForm) (fn : AluFn) (a b : Ix)
  | shift (k : ShiftKind) (d a : Ix) (n : Fin 33)
  deriving DecidableEq, Repr

/-! ### Vector parts -/

/-- The memory modes of a vector instruction (spec/44_vector_left.md R634). -/
inductive VMode
  | ar (n : Ix) | gr (n : Ix) | arSetGr (n : Ix) | arInc (n : Ix) | decAr (n : Ix)
  | arIncGr (n : Ix) | arAddGr (n : Ix)
  deriving DecidableEq, Repr

/-- The buffers a vector load can name (R640, R641, R642). -/
inductive LBuf
  | data | ram | wfifo
  deriving DecidableEq, Repr

/-- What the left part of a vector instruction does with memory. -/
inductive VMem
  | none
  | load (b : LBuf) (m : VMode)
  | store (m : VMode) (alsoRam : Bool)
  deriving DecidableEq, Repr

/-- A vector left part with a repetition count: memory command, `ftw`, `wtw` (R264). -/
structure VLeft where
  mem : VMem
  ftw : Bool
  wtw : Bool
  deriving DecidableEq, Repr

/-- The buffers an operation can read (spec/45_vector_right.md R700). -/
inductive Buf
  | data | ram | afifo
  deriving DecidableEq, Repr

/-- The operand sources (R700). -/
inductive VSrc
  | buf (b : Buf)
  | null
  | one
  | vr
  deriving DecidableEq, Repr

/-- The dyadic logical operations of the Vector ALU. -/
inductive VLogOp
  | or | and | xor
  deriving DecidableEq, Repr

/-- An operand with its `activate` modifier. -/
structure VArg where
  act : Bool
  src : VSrc
  deriving DecidableEq, Repr

/-- The vector right parts ("operations"), R264. -/
inductive VRight
  | none
  | logic (op : VLogOp) (notX notY : Bool) (x y : VArg)
  | fill (ones : Bool)
  | arith (sub : Bool) (x y : VArg)
  | mask (m : Buf) (shift : Bool) (x y : VArg)
  | vsum (m : Option Buf) (shift : Bool) (x y : VArg)
  | storeRegs
  deriving DecidableEq, Repr

/-- The vector instructions without a repetition count (R630). -/
inductive VBare
  | ftw | wtw | ftwWtw | vnul
  deriving DecidableEq, Repr

/-- The repetition count less one: `rep n` is written with `n - 1` (R280). -/
abbrev Rep := Fin 32

/-! ### Instructions -/

/-- What the low word of an instruction says (R261, R264). -/
inductive Low
  | scalar (p : Bool) (l : SLeft) (r : SRight)
  | vector (p : Bool) (n : Rep) (l : VLeft) (r : VRight)
  | bare (p : Bool) (b : VBare)
  deriving DecidableEq, Repr

/-- An instruction of R264: its low word and, where it is long, its constant (0 where it is short). -/
structure Code where
  low : Low
  k : Word
  deriving DecidableEq, Repr

end Sys2Proof
end

