-- ==== Sys2Proof/Config.lean ====
section
/-! DEFINITION. What the spec leaves open for the whole machine: parameters without a default and free values,
as constants without a body (nothing can be proved of their values), and the type of the parameters that
have a default (spec/00_scope.md R12), which State carries as plain data. -/

namespace Sys2Proof.Config

/-! ### Parameters without a default -/

/-- Which low word stands for which instruction: any one-to-one assignment of the non-zero words
(spec/30_encoding.md R262, R263). UNVERIFIED, safe: entry 1. -/
opaque codePerm : Equiv.Perm { w : Word // w ≠ 0 }

/-- What a low word that `codePerm` assigns to no instruction of the tables decodes to: a further spelling of an
instruction, a form outside the tables, or nothing (R263). The source leaves open how many words an instruction
has; this constant has the choice for every word `codePerm` does not need. UNVERIFIED, safe: entry 1. -/
opaque spareWord : Word → Option Low

/-- The entry address of the handler of request bit `k` (spec/60_exceptions.md R825).
UNVERIFIED, safe: entry 8. -/
opaque intVector : Fin 9 → Word

/-- The first multiply step: from A, gr7 and the flags N Z V C, the destination's value, gr7's new value and
the new flags (spec/43_scalar_alu.md R575). UNVERIFIED, safe: entry 10. -/
opaque mulFirstStep : Word → Word → BitVec 4 → Word × Word × BitVec 4

/-- The next multiply step (R576). UNVERIFIED, safe: entry 10. -/
opaque mulNextStep : Word → Word → BitVec 4 → Word × Word × BitVec 4

/-- What gr7 holds after a multiply step whose destination is gr7 itself: the source does not order the two
writes; the first argument says whether it is the first step (R575). UNVERIFIED, safe: entry 10. -/
opaque mulOnGr7 : Bool → Word → Word → BitVec 4 → Word

/-! ### Free values, applied to the state's counter -/

/-- intr[22:18] while afifo is empty (spec/10_state.md R75). Free value, safe: entry 11. -/
opaque freeAfifoCount : Nat → BitVec 5

/-- intr[17:13] while ram is empty (R76). Free value, safe: entry 11. -/
opaque freeRamCount : Nat → BitVec 5

/-- intr[29:26] after DMA activity (R73). Free value, safe: entry 11. -/
opaque freeDmar : Nat → BitVec 4

/-- The word read from an address outside MemMap: counter of the step, number of the access in the step,
address (spec/20_memory.md R230). Free value, safe: entry 12. -/
opaque freeRead : Nat → Nat → Word → Word

/-! ### Parameters with a default -/

/-- The sense of C after a subtraction (spec/43_scalar_alu.md R543). -/
inductive CarrySense
  | borrow | notBorrow
  deriving DecidableEq, Repr

/-- The arguments of DelaySlots (spec/42_control_transfer.md R475). -/
structure DelayCase where
  /-- `instr`: the branch instruction. -/
  instr : Code
  /-- `addr`: its address. -/
  addr : Word
  /-- `lens`: the lengths in words of the three instructions after it; the list ends before a word that decodes
  to no instruction, which has no length (DESIGN CHOICE, entry 9). -/
  lens : List Nat
  deriving DecidableEq, Repr

/-- The parameters of R12 that the spec gives a default, as plain data. DESIGN CHOICE, safe: entry 9. -/
structure Params where
  /-- DelaySlots: the cases with their number less one; a case not listed has 1 delayed instruction. -/
  delaySlots : List (DelayCase × Fin 3)
  /-- PopDropWords. -/
  popDropWords : Word
  /-- CarrySense. -/
  carrySense : CarrySense
  /-- EntryMask. -/
  entryMask : Word
  /-- IntPriority, first the request taken first. -/
  intPriority : List (Fin 9)
  /-- The complement of MemMap, as inclusive ranges of word addresses. -/
  unbacked : List (Word × Word)
  /-- ShiftOverflow: the shifts (kind, A, n) that set V. -/
  shiftOverflow : List (ShiftKind × Word × Fin 33)
  deriving DecidableEq, Repr

/-- The defaults of spec/92_eei_decisions.md D2, D3, D7, D8, D12, D13. -/
def Params.default : Params where
  delaySlots := []
  popDropWords := 2
  carrySense := .borrow
  entryMask := 0x00003FE0
  intPriority := [8, 7, 6, 5, 4, 3, 2, 1, 0]
  unbacked := []
  shiftOverflow := []

end Sys2Proof.Config
end

