-- ==== Sys2Proof/Syntax.lean ====
section
/-! DEFINITION. The instructions: one constructor for each row of spec/opcode_table.json, in the table's order.
A row of a left part carries its own operands, its constant `k` where it is long, and the right part beside it; a row of
a right part carries its own operands and the left part beside it, with that part's constant `k` (ignored where the left
part has none). `p` is the P bit (R265). Instr.code gives the instruction of R264 each stands for (entry 22). -/

namespace Sys2Proof

/-- The instructions of the NM6403, one constructor per row of the opcode table. -/
inductive Instr
  /-- Row 1, `nul` (R335). -/
  | nul (p : Bool) (r : SRight)
  /-- Row 2, `nul K` (R336). -/
  | nulK (p : Bool) (k : Word) (r : SRight)
  /-- Row 3, `with nul (right part omitted)` (R337). -/
  | withNulRight (p : Bool) (l : SLeft) (k : Word)
  /-- Row 4, `dst = [K]` (R340). -/
  | ldConst (p : Bool) (dst : Reg) (k : Word) (r : SRight)
  /-- Row 5, `dst = [arN]` (R341). -/
  | ldAr (p : Bool) (dst : Reg) (a : Ix) (r : SRight)
  /-- Row 6, `dst = [grN]` (R342). -/
  | ldGr (p : Bool) (dst : Reg) (a : Ix) (r : SRight)
  /-- Row 7, `dst = [arN++]` (R343). -/
  | ldArInc (p : Bool) (dst : Reg) (a : Ix) (r : SRight)
  /-- Row 8, `dst = [--arN]` (R344). -/
  | ldDecAr (p : Bool) (dst : Reg) (a : Ix) (r : SRight)
  /-- Row 9, `dst = [arN++grN]` (R345). -/
  | ldArIncGr (p : Bool) (dst : Reg) (a : Ix) (r : SRight)
  /-- Row 10, `dst = [arN+=grN]` (R346). -/
  | ldArAddGr (p : Bool) (dst : Reg) (a : Ix) (r : SRight)
  /-- Row 11, `dst = [arN=grN]` (R347). -/
  | ldArSetGr (p : Bool) (dst : Reg) (a : Ix) (r : SRight)
  /-- Row 12, `dst = [arN=K]` (R348). -/
  | ldArSetConst (p : Bool) (dst : Reg) (a : Ix) (k : Word) (r : SRight)
  /-- Row 13, `dst = [arN+=K] | dst = [arN-=K]` (R349). -/
  | ldArAddConst (p : Bool) (dst : Reg) (a : Ix) (neg : Bool) (k : Word) (r : SRight)
  /-- Row 14, `vreg = [mode] (f1cr, f2cr, nb1, sb, vr and halves)` (R350). -/
  | ldVctl (p : Bool) (dst : VCtl) (m : Mode) (k : Word) (r : SRight)
  /-- Row 15, `[K] = src` (R355). -/
  | stConst (p : Bool) (src : Reg) (k : Word) (r : SRight)
  /-- Row 16, `[arN] = src` (R356). -/
  | stAr (p : Bool) (a : Ix) (src : Reg) (r : SRight)
  /-- Row 17, `[grN] = src` (R357). -/
  | stGr (p : Bool) (a : Ix) (src : Reg) (r : SRight)
  /-- Row 18, `[arN++] = src` (R358). -/
  | stArInc (p : Bool) (a : Ix) (src : Reg) (r : SRight)
  /-- Row 19, `[--arN] = src` (R359). -/
  | stDecAr (p : Bool) (a : Ix) (src : Reg) (r : SRight)
  /-- Row 20, `[arN++grN] = src` (R360). -/
  | stArIncGr (p : Bool) (a : Ix) (src : Reg) (r : SRight)
  /-- Row 21, `[arN+=grN] = src` (R361). -/
  | stArAddGr (p : Bool) (a : Ix) (src : Reg) (r : SRight)
  /-- Row 22, `[arN=grN] = src` (R362). -/
  | stArSetGr (p : Bool) (a : Ix) (src : Reg) (r : SRight)
  /-- Row 23, `[arN=K] = src` (R363). -/
  | stArSetConst (p : Bool) (a : Ix) (src : Reg) (k : Word) (r : SRight)
  /-- Row 24, `[arN+=K] = src | [arN-=K] = src` (R364). -/
  | stArAddConst (p : Bool) (a : Ix) (neg : Bool) (src : Reg) (k : Word) (r : SRight)
  /-- Row 25, `push arS` (R381). -/
  | pushAr (p : Bool) (src : Ix) (r : SRight)
  /-- Row 26, `push grS` (R382). -/
  | pushGr (p : Bool) (src : Ix) (r : SRight)
  /-- Row 27, `push arS,grS` (R383). -/
  | pushPair (p : Bool) (src : Ix) (r : SRight)
  /-- Row 28, `pop arD` (R384). -/
  | popAr (p : Bool) (d : Ix) (r : SRight)
  /-- Row 29, `pop grD` (R385). -/
  | popGr (p : Bool) (d : Ix) (r : SRight)
  /-- Row 30, `pop arD,grD` (R386). -/
  | popPair (p : Bool) (d : Ix) (r : SRight)
  /-- Row 31, `pop` (R387). -/
  | popDrop (p : Bool) (r : SRight)
  /-- Row 32, `push reg | pop reg (other registers of Table 5-1)` (R388). -/
  | stackOther (p : Bool) (isPop : Bool) (reg : Reg) (r : SRight)
  /-- Row 33, `arD = arS` (R410). -/
  | cpArAr (p : Bool) (d : Ix) (src : Ix) (r : SRight)
  /-- Row 34, `grD = arS` (R411). -/
  | cpGrAr (p : Bool) (d : Ix) (src : Ix) (r : SRight)
  /-- Row 35, `arD = grS` (R412). -/
  | cpArGr (p : Bool) (d : Ix) (src : Ix) (r : SRight)
  /-- Row 36, `grD = grS` (R413). -/
  | cpGrGr (p : Bool) (d : Ix) (src : Ix) (r : SRight)
  /-- Row 37, `arD,grD = arS,grS` (R414). -/
  | cpPairPair (p : Bool) (d : Ix) (src : Ix) (r : SRight)
  /-- Row 38, `arD,grD = arS` (R415). -/
  | cpPairAr (p : Bool) (d : Ix) (src : Ix) (r : SRight)
  /-- Row 39, `arD,grD = grS` (R416). -/
  | cpPairGr (p : Bool) (d : Ix) (src : Ix) (r : SRight)
  /-- Row 40, `vregh = arS (nb1l, nb1h, sbl, sbh, f1crl, f1crh, f2crl, f2crh, vrl, vrh)` (R417). -/
  | cpVHalfAr (p : Bool) (d : VHalf) (src : Ix) (r : SRight)
  /-- Row 41, `vregh = grS` (R418). -/
  | cpVHalfGr (p : Bool) (d : VHalf) (src : Ix) (r : SRight)
  /-- Row 42, `vreg = arS (nb1, sb, f1cr, f2cr, vr)` (R419). -/
  | cpVRegAr (p : Bool) (d : VReg) (src : Ix) (r : SRight)
  /-- Row 43, `vreg = grS` (R420). -/
  | cpVRegGr (p : Bool) (d : VReg) (src : Ix) (r : SRight)
  /-- Row 44, `vreg = arS,grS` (R421). -/
  | cpVRegPair (p : Bool) (d : VReg) (src : Ix) (r : SRight)
  /-- Row 45, `arD = spec` (R422). -/
  | cpArSpec (p : Bool) (d : Ix) (src : SpecReg) (r : SRight)
  /-- Row 46, `grD = spec` (R423). -/
  | cpGrSpec (p : Bool) (d : Ix) (src : SpecReg) (r : SRight)
  /-- Row 47, `arD,grD = spec | arD,grD = specpair` (R424). -/
  | cpPairSpec (p : Bool) (d : Ix) (src : Special) (r : SRight)
  /-- Row 48, `spec = arS | spec = grS` (R425). -/
  | cpSpecPrim (p : Bool) (d : Special) (src : PReg) (r : SRight)
  /-- Row 49, `spec = spec | specpair = arS,grS | specpair = specpair` (R426). -/
  | cpOther (p : Bool) (d : Reg) (src : Reg) (r : SRight)
  /-- Row 50, `arD = K` (R431). -/
  | setAr (p : Bool) (d : Ix) (k : Word) (r : SRight)
  /-- Row 51, `grD = K` (R432). -/
  | setGr (p : Bool) (d : Ix) (k : Word) (r : SRight)
  /-- Row 52, `arD,grD = K` (R433). -/
  | setPair (p : Bool) (d : Ix) (k : Word) (r : SRight)
  /-- Row 53, `spec = K` (R434). -/
  | setSpec (p : Bool) (d : Special) (k : Word) (r : SRight)
  /-- Row 54, `vregh = K` (R435). -/
  | setVHalf (p : Bool) (d : VHalf) (k : Word) (r : SRight)
  /-- Row 55, `vreg = K` (R436). -/
  | setVReg (p : Bool) (d : VReg) (k : Word) (r : SRight)
  /-- Row 56, `arD = arS addr` (R451). -/
  | amMovAr (p : Bool) (d : Ix) (src : Ix) (r : SRight)
  /-- Row 57, `arD = grS addr` (R452). -/
  | amMovGr (p : Bool) (d : Ix) (src : Ix) (r : SRight)
  /-- Row 58, `arD = arS+grS` (R453). -/
  | amAddGr (p : Bool) (d : Ix) (src : Ix) (r : SRight)
  /-- Row 59, `arD = arS+K | arD = arS-K` (R454). -/
  | amAddConst (p : Bool) (d : Ix) (src : Ix) (neg : Bool) (k : Word) (r : SRight)
  /-- Row 60, `arD = K addr` (R455). -/
  | amSetConst (p : Bool) (d : Ix) (k : Word) (r : SRight)
  /-- Row 61, `arD++` (R456). -/
  | amInc (p : Bool) (d : Ix) (r : SRight)
  /-- Row 62, `arD--` (R457). -/
  | amDec (p : Bool) (d : Ix) (r : SRight)
  /-- Row 63, `arD+=grD | arD-=grD` (R458). -/
  | amIncGr (p : Bool) (d : Ix) (neg : Bool) (r : SRight)
  /-- Row 64, `arD+=K` (R459). -/
  | amIncConst (p : Bool) (d : Ix) (k : Word) (r : SRight)
  /-- Row 65, `arD-=K` (R460). -/
  | amDecConst (p : Bool) (d : Ix) (k : Word) (r : SRight)
  /-- Row 66, `pswr set K` (R445). -/
  | pswrSet (p : Bool) (k : Word) (r : SRight)
  /-- Row 67, `pswr clear K` (R446). -/
  | pswrClear (p : Bool) (k : Word) (r : SRight)
  /-- Row 68, `goto K` (R480). -/
  | gotoK (p : Bool) (c : Cond) (dl : Bool) (k : Word) (r : SRight)
  /-- Row 69, `goto arS` (R481). -/
  | gotoAr (p : Bool) (c : Cond) (dl : Bool) (src : Ix) (r : SRight)
  /-- Row 70, `goto grS` (R482). -/
  | gotoGr (p : Bool) (c : Cond) (dl : Bool) (src : Ix) (r : SRight)
  /-- Row 71, `goto arS+grS` (R483). -/
  | gotoArGr (p : Bool) (c : Cond) (dl : Bool) (src : Ix) (r : SRight)
  /-- Row 72, `goto arS+K | goto arS-K` (R484). -/
  | gotoArK (p : Bool) (c : Cond) (dl : Bool) (src : Ix) (neg : Bool) (k : Word) (r : SRight)
  /-- Row 73, `skip K` (R485). -/
  | skipK (p : Bool) (c : Cond) (dl : Bool) (k : Word) (r : SRight)
  /-- Row 74, `skip grS` (R486). -/
  | skipGr (p : Bool) (c : Cond) (dl : Bool) (src : Ix) (r : SRight)
  /-- Row 75, `call K` (R491). -/
  | callK (p : Bool) (c : Cond) (dl : Bool) (k : Word) (r : SRight)
  /-- Row 76, `call arS` (R492). -/
  | callAr (p : Bool) (c : Cond) (dl : Bool) (src : Ix) (r : SRight)
  /-- Row 77, `call grS` (R493). -/
  | callGr (p : Bool) (c : Cond) (dl : Bool) (src : Ix) (r : SRight)
  /-- Row 78, `call arS+grS` (R494). -/
  | callArGr (p : Bool) (c : Cond) (dl : Bool) (src : Ix) (r : SRight)
  /-- Row 79, `call arS+K | call arS-K` (R495). -/
  | callArK (p : Bool) (c : Cond) (dl : Bool) (src : Ix) (neg : Bool) (k : Word) (r : SRight)
  /-- Row 80, `callrel K` (R496). -/
  | callrelK (p : Bool) (c : Cond) (dl : Bool) (k : Word) (r : SRight)
  /-- Row 81, `callrel grS` (R497). -/
  | callrelGr (p : Bool) (c : Cond) (dl : Bool) (src : Ix) (r : SRight)
  /-- Row 82, `return` (R510). -/
  | ret (p : Bool) (c : Cond) (dl : Bool) (r : SRight)
  /-- Row 83, `ireturn` (R512). -/
  | iret (p : Bool) (c : Cond) (dl : Bool) (r : SRight)
  /-- Row 84, `grD = grA + grB` (R550). -/
  | add (p : Bool) (l : SLeft) (k : Word) (nf : Bool) (d : Ix) (a : Ix) (b : Ix)
  /-- Row 85, `grD += grB` (R551). -/
  | addTo (p : Bool) (l : SLeft) (k : Word) (nf : Bool) (d : Ix) (b : Ix)
  /-- Row 86, `grD = grA + 1` (R552). -/
  | inc (p : Bool) (l : SLeft) (k : Word) (nf : Bool) (d : Ix) (a : Ix)
  /-- Row 87, `grD++` (R553). -/
  | incSelf (p : Bool) (l : SLeft) (k : Word) (nf : Bool) (d : Ix)
  /-- Row 88, `grD = grA - grB` (R554). -/
  | sub (p : Bool) (l : SLeft) (k : Word) (nf : Bool) (d : Ix) (a : Ix) (b : Ix)
  /-- Row 89, `grD -= grB` (R555). -/
  | subFrom (p : Bool) (l : SLeft) (k : Word) (nf : Bool) (d : Ix) (b : Ix)
  /-- Row 90, `grD = grA - 1` (R556). -/
  | dec (p : Bool) (l : SLeft) (k : Word) (nf : Bool) (d : Ix) (a : Ix)
  /-- Row 91, `grD--` (R557). -/
  | decSelf (p : Bool) (l : SLeft) (k : Word) (nf : Bool) (d : Ix)
  /-- Row 92, `grD = grA + carry` (R558). -/
  | addC (p : Bool) (l : SLeft) (k : Word) (nf : Bool) (d : Ix) (a : Ix)
  /-- Row 93, `grD = grA + grB + carry` (R559). -/
  | addBC (p : Bool) (l : SLeft) (k : Word) (nf : Bool) (d : Ix) (a : Ix) (b : Ix)
  /-- Row 94, `grD = grA - 1 + carry` (R560). -/
  | subC (p : Bool) (l : SLeft) (k : Word) (nf : Bool) (d : Ix) (a : Ix)
  /-- Row 95, `grD = grA - grB - 1 + carry` (R561). -/
  | subBC (p : Bool) (l : SLeft) (k : Word) (nf : Bool) (d : Ix) (a : Ix) (b : Ix)
  /-- Row 96, `grD = - grA` (R562). -/
  | negGr (p : Bool) (l : SLeft) (k : Word) (nf : Bool) (d : Ix) (a : Ix)
  /-- Row 97, `grD = grA *: gr7` (R575). -/
  | mulFirst (p : Bool) (l : SLeft) (k : Word) (nf : Bool) (d : Ix) (a : Ix)
  /-- Row 98, `grD = grA * gr7` (R576). -/
  | mulNext (p : Bool) (l : SLeft) (k : Word) (nf : Bool) (d : Ix) (a : Ix)
  /-- Row 99, `grA + grB; (flags-only arithmetic example row)` (R577). -/
  | addFlags (p : Bool) (l : SLeft) (k : Word) (a : Ix) (b : Ix)
  /-- Row 100, `grD = grA or grB` (R580). -/
  | orGr (p : Bool) (l : SLeft) (k : Word) (nf : Bool) (d : Ix) (a : Ix) (b : Ix)
  /-- Row 101, `grD = grA and grB` (R581). -/
  | andGr (p : Bool) (l : SLeft) (k : Word) (nf : Bool) (d : Ix) (a : Ix) (b : Ix)
  /-- Row 102, `grD = grA xor grB` (R582). -/
  | xorGr (p : Bool) (l : SLeft) (k : Word) (nf : Bool) (d : Ix) (a : Ix) (b : Ix)
  /-- Row 103, `grD = not grA` (R583). -/
  | notGr (p : Bool) (l : SLeft) (k : Word) (nf : Bool) (d : Ix) (a : Ix)
  /-- Row 104, `grD = not grA or grB` (R584). -/
  | notAorB (p : Bool) (l : SLeft) (k : Word) (nf : Bool) (d : Ix) (a : Ix) (b : Ix)
  /-- Row 105, `grD = grA or not grB` (R585). -/
  | aOrNotB (p : Bool) (l : SLeft) (k : Word) (nf : Bool) (d : Ix) (a : Ix) (b : Ix)
  /-- Row 106, `grD = grA (right-part copy)` (R586). -/
  | copyGr (p : Bool) (l : SLeft) (k : Word) (nf : Bool) (d : Ix) (a : Ix)
  /-- Row 107, `grD = not grA or not grB` (R587). -/
  | notAorNotB (p : Bool) (l : SLeft) (k : Word) (nf : Bool) (d : Ix) (a : Ix) (b : Ix)
  /-- Row 108, `grD = not grA and grB` (R588). -/
  | notAandB (p : Bool) (l : SLeft) (k : Word) (nf : Bool) (d : Ix) (a : Ix) (b : Ix)
  /-- Row 109, `grD = grA and not grB` (R589). -/
  | aAndNotB (p : Bool) (l : SLeft) (k : Word) (nf : Bool) (d : Ix) (a : Ix) (b : Ix)
  /-- Row 110, `grD = not grA and not grB` (R590). -/
  | notAandNotB (p : Bool) (l : SLeft) (k : Word) (nf : Bool) (d : Ix) (a : Ix) (b : Ix)
  /-- Row 111, `grD = not grA xor grB` (R591). -/
  | notAxorB (p : Bool) (l : SLeft) (k : Word) (nf : Bool) (d : Ix) (a : Ix) (b : Ix)
  /-- Row 112, `grD = grA xor not grB` (R592). -/
  | aXorNotB (p : Bool) (l : SLeft) (k : Word) (nf : Bool) (d : Ix) (a : Ix) (b : Ix)
  /-- Row 113, `grD = false` (R593). -/
  | setFalse (p : Bool) (l : SLeft) (k : Word) (nf : Bool) (d : Ix)
  /-- Row 114, `grD = true` (R594). -/
  | setTrue (p : Bool) (l : SLeft) (k : Word) (nf : Bool) (d : Ix)
  /-- Row 115, `grA;` (R595). -/
  | testGr (p : Bool) (l : SLeft) (k : Word) (a : Ix)
  /-- Row 116, `- grA;` (R596). -/
  | testNeg (p : Bool) (l : SLeft) (k : Word) (a : Ix)
  /-- Row 117, `<expr>; (flags-only form of the rows of rules R550 to R561 and R580 to R592)` (R597). -/
  | testExpr (p : Bool) (l : SLeft) (k : Word) (fn : AluFn) (a : Ix) (b : Ix)
  /-- Row 118, `true;` (R598). -/
  | flagsTrue (p : Bool) (l : SLeft) (k : Word)
  /-- Row 119, `false;` (R599). -/
  | flagsFalse (p : Bool) (l : SLeft) (k : Word)
  /-- Row 120, `grD = grA << n` (R601). -/
  | shl (p : Bool) (l : SLeft) (k : Word) (d : Ix) (a : Ix) (n : Fin 33)
  /-- Row 121, `grD = grA >> n` (R602). -/
  | shr (p : Bool) (l : SLeft) (k : Word) (d : Ix) (a : Ix) (n : Fin 33)
  /-- Row 122, `grD = grA A>> n` (R603). -/
  | sar (p : Bool) (l : SLeft) (k : Word) (d : Ix) (a : Ix) (n : Fin 33)
  /-- Row 123, `grD = grA R<< n` (R604). -/
  | rol (p : Bool) (l : SLeft) (k : Word) (d : Ix) (a : Ix) (n : Fin 33)
  /-- Row 124, `grD = grA R>> n` (R605). -/
  | ror (p : Bool) (l : SLeft) (k : Word) (d : Ix) (a : Ix) (n : Fin 33)
  /-- Row 125, `grD = grA C<< 1` (R606). -/
  | rcl (p : Bool) (l : SLeft) (k : Word) (d : Ix) (a : Ix)
  /-- Row 126, `grD = grA C>> 1` (R607). -/
  | rcr (p : Bool) (l : SLeft) (k : Word) (d : Ix) (a : Ix)
  /-- Row 127, `rep n data = [mode]` (R640). -/
  | vLdData (p : Bool) (n : Rep) (m : VMode) (f : Bool) (w : Bool) (r : VRight)
  /-- Row 128, `rep n ram = [mode]` (R641). -/
  | vLdRam (p : Bool) (n : Rep) (m : VMode) (f : Bool) (w : Bool) (r : VRight)
  /-- Row 129, `rep n wfifo = [mode]` (R642). -/
  | vLdWfifo (p : Bool) (n : Rep) (m : VMode) (f : Bool) (w : Bool) (r : VRight)
  /-- Row 130, `rep n buf = [arN]` (R645). -/
  | vLdAr (p : Bool) (n : Rep) (b : LBuf) (a : Ix) (f : Bool) (w : Bool) (r : VRight)
  /-- Row 131, `rep n buf = [grN]` (R646). -/
  | vLdGr (p : Bool) (n : Rep) (b : LBuf) (a : Ix) (f : Bool) (w : Bool) (r : VRight)
  /-- Row 132, `rep n buf = [arN=grN]` (R647). -/
  | vLdArSetGr (p : Bool) (n : Rep) (b : LBuf) (a : Ix) (f : Bool) (w : Bool) (r : VRight)
  /-- Row 133, `rep n buf = [arN++]` (R648). -/
  | vLdArInc (p : Bool) (n : Rep) (b : LBuf) (a : Ix) (f : Bool) (w : Bool) (r : VRight)
  /-- Row 134, `rep n buf = [--arN]` (R649). -/
  | vLdDecAr (p : Bool) (n : Rep) (b : LBuf) (a : Ix) (f : Bool) (w : Bool) (r : VRight)
  /-- Row 135, `rep n buf = [arN++grN]` (R650). -/
  | vLdArIncGr (p : Bool) (n : Rep) (b : LBuf) (a : Ix) (f : Bool) (w : Bool) (r : VRight)
  /-- Row 136, `rep n buf = [arN+=grN]` (R651). -/
  | vLdArAddGr (p : Bool) (n : Rep) (b : LBuf) (a : Ix) (f : Bool) (w : Bool) (r : VRight)
  /-- Row 137, `rep n [mode] = afifo` (R655). -/
  | vSt (p : Bool) (n : Rep) (m : VMode) (f : Bool) (w : Bool) (r : VRight)
  /-- Row 138, `rep n [mode], ram = afifo` (R656). -/
  | vStRam (p : Bool) (n : Rep) (m : VMode) (f : Bool) (w : Bool) (r : VRight)
  /-- Row 139, `rep n [arN] = afifo` (R660). -/
  | vStAr (p : Bool) (n : Rep) (a : Ix) (f : Bool) (w : Bool) (r : VRight)
  /-- Row 140, `rep n [grN] = afifo` (R661). -/
  | vStGr (p : Bool) (n : Rep) (a : Ix) (f : Bool) (w : Bool) (r : VRight)
  /-- Row 141, `rep n [arN=grN] = afifo` (R662). -/
  | vStArSetGr (p : Bool) (n : Rep) (a : Ix) (f : Bool) (w : Bool) (r : VRight)
  /-- Row 142, `rep n [arN++] = afifo` (R663). -/
  | vStArInc (p : Bool) (n : Rep) (a : Ix) (f : Bool) (w : Bool) (r : VRight)
  /-- Row 143, `rep n [--arN] = afifo` (R664). -/
  | vStDecAr (p : Bool) (n : Rep) (a : Ix) (f : Bool) (w : Bool) (r : VRight)
  /-- Row 144, `rep n [arN++grN] = afifo` (R665). -/
  | vStArIncGr (p : Bool) (n : Rep) (a : Ix) (f : Bool) (w : Bool) (r : VRight)
  /-- Row 145, `rep n [arN+=grN] = afifo` (R666). -/
  | vStArAddGr (p : Bool) (n : Rep) (a : Ix) (f : Bool) (w : Bool) (r : VRight)
  /-- Row 146, `rep n [arN++], ram = afifo (store with copy to ram, any mode)` (R667). -/
  | vStRamCopy (p : Bool) (n : Rep) (m : VMode) (f : Bool) (w : Bool) (r : VRight)
  /-- Row 147, `rep n with <right part> (left part absent)` (R670). -/
  | vNoLeft (p : Bool) (n : Rep) (r : VRight)
  /-- Row 148, `vnul` (R690). -/
  | vnul (p : Bool)
  /-- Row 149, `rep n wfifo = [mode]` (R675). -/
  | wfifoLd (p : Bool) (n : Rep) (m : VMode) (r : VRight)
  /-- Row 150, `rep n wfifo = [mode], ftw` (R676). -/
  | wfifoLdFtw (p : Bool) (n : Rep) (m : VMode) (r : VRight)
  /-- Row 151, `rep n wfifo = [mode], ftw, wtw` (R677). -/
  | wfifoLdFtwWtw (p : Bool) (n : Rep) (m : VMode) (r : VRight)
  /-- Row 152, `ftw` (R680). -/
  | ftw (p : Bool)
  /-- Row 153, `rep n ftw with <right part>` (R681). -/
  | ftwWith (p : Bool) (n : Rep) (w : Bool) (r : VRight)
  /-- Row 154, `wtw` (R685). -/
  | wtw (p : Bool) (o : Option (Rep × VRight))
  /-- Row 155, `ftw, wtw` (R687). -/
  | ftwWtw (p : Bool)
  /-- Row 156, `(vector right part omitted)` (R705). -/
  | vNoRight (p : Bool) (n : Rep) (l : VLeft)
  /-- Row 157, `with X or Y` (R720). -/
  | vOr (p : Bool) (n : Rep) (l : VLeft) (x : VSrc) (y : VSrc)
  /-- Row 158, `with X and Y` (R721). -/
  | vAnd (p : Bool) (n : Rep) (l : VLeft) (x : VSrc) (y : VSrc)
  /-- Row 159, `with X xor Y` (R722). -/
  | vXor (p : Bool) (n : Rep) (l : VLeft) (x : VSrc) (y : VSrc)
  /-- Row 160, `with not X` (R723). -/
  | vNot (p : Bool) (n : Rep) (l : VLeft) (x : VSrc)
  /-- Row 161, `with not X or Y` (R724). -/
  | vNotOr (p : Bool) (n : Rep) (l : VLeft) (x : VSrc) (y : VSrc)
  /-- Row 162, `with X or not Y` (R725). -/
  | vOrNot (p : Bool) (n : Rep) (l : VLeft) (x : VSrc) (y : VSrc)
  /-- Row 163, `with not X or not Y` (R726). -/
  | vNotOrNot (p : Bool) (n : Rep) (l : VLeft) (x : VSrc) (y : VSrc)
  /-- Row 164, `with not X and Y` (R727). -/
  | vNotAnd (p : Bool) (n : Rep) (l : VLeft) (x : VSrc) (y : VSrc)
  /-- Row 165, `with X and not Y` (R728). -/
  | vAndNot (p : Bool) (n : Rep) (l : VLeft) (x : VSrc) (y : VSrc)
  /-- Row 166, `with not X and not Y` (R729). -/
  | vNotAndNot (p : Bool) (n : Rep) (l : VLeft) (x : VSrc) (y : VSrc)
  /-- Row 167, `with not X xor Y` (R730). -/
  | vNotXor (p : Bool) (n : Rep) (l : VLeft) (x : VSrc) (y : VSrc)
  /-- Row 168, `with vfalse` (R731). -/
  | vFalse (p : Bool) (n : Rep) (l : VLeft)
  /-- Row 169, `with vtrue` (R732). -/
  | vTrue (p : Bool) (n : Rep) (l : VLeft)
  /-- Row 170, `with X + Y` (R735). -/
  | vAdd (p : Bool) (n : Rep) (l : VLeft) (x : VSrc) (y : VSrc)
  /-- Row 171, `with X - Y` (R736). -/
  | vSub (p : Bool) (n : Rep) (l : VLeft) (x : VSrc) (y : VSrc)
  /-- Row 172, `with 0 - Y` (R737). -/
  | vNegY (p : Bool) (n : Rep) (l : VLeft) (y : VSrc)
  /-- Row 173, `with X + 1` (R738). -/
  | vInc (p : Bool) (n : Rep) (l : VLeft) (x : VSrc)
  /-- Row 174, `with 0 + 1` (R739). -/
  | vOne (p : Bool) (n : Rep) (l : VLeft)
  /-- Row 175, `with X - 1` (R740). -/
  | vDec (p : Bool) (n : Rep) (l : VLeft) (x : VSrc)
  /-- Row 176, `with 0 - 1` (R741). -/
  | vMinusOne (p : Bool) (n : Rep) (l : VLeft)
  /-- Row 177, `with mask M, X, Y` (R750). -/
  | vMask (p : Bool) (n : Rep) (l : VLeft) (m : Buf) (x : VSrc) (y : VSrc)
  /-- Row 178, `with mask M, shift X, Y` (R751). -/
  | vMaskShift (p : Bool) (n : Rep) (l : VLeft) (m : Buf) (x : VSrc) (y : VSrc)
  /-- Row 179, `with vsum , X, 0` (R761). -/
  | vSum0 (p : Bool) (n : Rep) (l : VLeft) (x : VSrc)
  /-- Row 180, `with vsum , X, Y` (R762). -/
  | vSumY (p : Bool) (n : Rep) (l : VLeft) (x : VSrc) (y : VSrc)
  /-- Row 181, `with vsum M, X, Y` (R763). -/
  | vSumMask (p : Bool) (n : Rep) (l : VLeft) (m : Buf) (x : VSrc) (y : VSrc)
  /-- Row 182, `with vsum , shift X, Y` (R764). -/
  | vSumShift (p : Bool) (n : Rep) (l : VLeft) (m : Option Buf) (x : VSrc) (y : VSrc)
  /-- Row 183, `with activate X or Y` (R771). -/
  | vActXOr (p : Bool) (n : Rep) (l : VLeft) (x : VSrc) (y : VSrc)
  /-- Row 184, `with not activate X and Y` (R772). -/
  | vNotActXAnd (p : Bool) (n : Rep) (l : VLeft) (x : VSrc) (y : VSrc)
  /-- Row 185, `with X or activate Y` (R773). -/
  | vOrActY (p : Bool) (n : Rep) (l : VLeft) (x : VSrc) (y : VSrc)
  /-- Row 186, `with X and not activate Y` (R774). -/
  | vAndNotActY (p : Bool) (n : Rep) (l : VLeft) (x : VSrc) (y : VSrc)
  /-- Row 187, `with activate X xor activate Y` (R775). -/
  | vActXXorActY (p : Bool) (n : Rep) (l : VLeft) (x : VSrc) (y : VSrc)
  /-- Row 188, `with not activate X and not activate Y` (R776). -/
  | vNotActXAndNotActY (p : Bool) (n : Rep) (l : VLeft) (x : VSrc) (y : VSrc)
  /-- Row 189, `with mask M, activate X, Y` (R777). -/
  | vMaskActX (p : Bool) (n : Rep) (l : VLeft) (m : Buf) (x : VSrc) (y : VSrc)
  /-- Row 190, `with mask M, X, activate Y` (R778). -/
  | vMaskActY (p : Bool) (n : Rep) (l : VLeft) (m : Buf) (x : VSrc) (y : VSrc)
  /-- Row 191, `with mask M, activate X, activate Y` (R779). -/
  | vMaskActXY (p : Bool) (n : Rep) (l : VLeft) (m : Buf) (x : VSrc) (y : VSrc)
  /-- Row 192, `with mask M, shift activate X, Y` (R780). -/
  | vMaskShiftActX (p : Bool) (n : Rep) (l : VLeft) (m : Buf) (x : VSrc) (y : VSrc)
  /-- Row 193, `with activate X + Y` (R781). -/
  | vActXAdd (p : Bool) (n : Rep) (l : VLeft) (x : VSrc) (y : VSrc)
  /-- Row 194, `with X - activate Y` (R782). -/
  | vSubActY (p : Bool) (n : Rep) (l : VLeft) (x : VSrc) (y : VSrc)
  /-- Row 195, `with activate X + activate Y` (R783). -/
  | vActXAddActY (p : Bool) (n : Rep) (l : VLeft) (x : VSrc) (y : VSrc)
  /-- Row 196, `with vsum , activate X, Y` (R784). -/
  | vSumActX (p : Bool) (n : Rep) (l : VLeft) (x : VSrc) (y : VSrc)
  /-- Row 197, `with vsum , X, activate Y` (R785). -/
  | vSumActY (p : Bool) (n : Rep) (l : VLeft) (x : VSrc) (y : VSrc)
  /-- Row 198, `with vsum M, activate X, activate Y` (R786). -/
  | vSumMaskActXY (p : Bool) (n : Rep) (l : VLeft) (m : Buf) (x : VSrc) (y : VSrc)
  /-- Row 199, `with vsum , shift activate X, 0` (R787). -/
  | vSumShiftActX (p : Bool) (n : Rep) (l : VLeft) (x : VSrc)
  /-- Row 200, `with <any operation of rules R720 to R764 with activate before a buffer operand>` (R788). -/
  | vAnyActivated (p : Bool) (n : Rep) (l : VLeft) (r : VRight)
  /-- Row 201, `rep 5 with store vregs` (R790). -/
  | storeVregs (p : Bool) (n : Rep) (l : VLeft)
  deriving DecidableEq, Repr

end Sys2Proof
end

