-- ==== Sys2Proof/Machine/Code.lean ====
section
/-! DEFINITION. Which instruction of spec/30_encoding.md R264 each constructor of Instr stands for (`Instr.code`),
the constructor chosen for each instruction of R264 (`Instr.ofCode`), and the length of an instruction (R266). -/

namespace Sys2Proof

/-! ### Spellings the rows use -/

/-- `[arN+=Const]`, or `[arN-=Const]` when `neg` (R349, R364). -/
def Mode.addConst (neg : Bool) (a : Ix) : Mode := if neg then .arSubConst a else .arAddConst a

/-- `arD = arS+K`, or `arD = arS-K` when `neg` (R454, R295). -/
def ArOp.addSubConst (neg : Bool) (d s : Ix) : ArOp := if neg then .subConst d s else .addConst d s

/-- `arD+=grD`, or `arD-=grD` when `neg` (R458). -/
def ArOp.incDecGr (neg : Bool) (d : Ix) : ArOp := if neg then .decGr d else .incGr d

/-- `arS+K`, or `arS-K` when `neg` (R484, R495). -/
def Target.arConst (neg : Bool) (s : Ix) : Target := if neg then .arSub s else .arAdd s

/-- `push reg`, or `pop reg` when `isPop` (R388). -/
def SLeft.stackReg (isPop : Bool) (reg : Reg) : SLeft := if isPop then .pop reg else .push reg

/-- The standard form, or the `noflags` form (R545, R547). -/
def AluForm.withDst (nf : Bool) (d : Ix) : AluForm := if nf then .noflags d else .std d

/-! ### Length (R266) -/

/-- Whether an addressing mode contains a constant. -/
def Mode.long : Mode → Bool
  | .const | .arSetConst _ | .arAddConst _ | .arSubConst _ => true
  | _ => false

/-- Whether an address modification contains a constant. -/
def ArOp.long : ArOp → Bool
  | .addConst _ _ | .subConst _ _ | .setConst _ | .incConst _ | .decConst _ => true
  | _ => false

/-- Whether a target contains a constant. -/
def Target.long : Target → Bool
  | .const | .arAdd _ | .arSub _ => true
  | _ => false

/-- Whether a displacement is a constant. -/
def RelTarget.long : RelTarget → Bool
  | .const => true
  | .gr _ => false

/-- Whether a control transfer contains a constant. -/
def Xfer.long : Xfer → Bool
  | .goto t | .call t => t.long
  | .skip t | .callrel t => t.long
  | .ret | .iret => false

/-- Whether a scalar left part makes the instruction long (R266). -/
def SLeft.long : SLeft → Bool
  | .nulC | .setConst _ | .pswrSet | .pswrClear => true
  | .load _ m | .store m _ => m.long
  | .arMod o => o.long
  | .xfer _ _ x => x.long
  | .nul | .push _ | .pop _ | .popDrop | .copy _ _ => false

/-- The constant that goes with a left part: none (0) for a short one. -/
def SLeft.constOf (l : SLeft) (k : Word) : Word := if l.long then k else 0

/-- Whether a low word is that of a long instruction; every vector instruction is short (R266). -/
def Low.long : Low → Bool
  | .scalar _ l _ => l.long
  | .vector _ _ _ _ | .bare _ _ => false

/-- The length of an instruction in words (R266). -/
def Code.len (c : Code) : Word := if c.low.long then 2 else 1

/-- A short instruction has no constant. -/
def Code.normal (c : Code) : Bool := c.low.long || c.k == 0

/-! ### The rows -/

/-- What row 154 stands for: the bare `wtw`, or `rep n wtw with R` (R685). -/
def Low.wtwRow (p : Bool) : Option (Rep × VRight) → Low
  | none => .bare p .wtw
  | some (n, r) => .vector p n ⟨.none, false, true⟩ r

/-- The instruction of R264 a row's constructor stands for. -/
def Instr.code : Instr → Code
  | .nul p r => ⟨.scalar p .nul r, 0⟩
  | .nulK p k r => ⟨.scalar p .nulC r, k⟩
  | .withNulRight p l k => ⟨.scalar p l .nul, (l.constOf k)⟩
  | .ldConst p dst k r => ⟨.scalar p (.load dst .const) r, k⟩
  | .ldAr p dst a r => ⟨.scalar p (.load dst (.ar a)) r, 0⟩
  | .ldGr p dst a r => ⟨.scalar p (.load dst (.gr a)) r, 0⟩
  | .ldArInc p dst a r => ⟨.scalar p (.load dst (.arInc a)) r, 0⟩
  | .ldDecAr p dst a r => ⟨.scalar p (.load dst (.decAr a)) r, 0⟩
  | .ldArIncGr p dst a r => ⟨.scalar p (.load dst (.arIncGr a)) r, 0⟩
  | .ldArAddGr p dst a r => ⟨.scalar p (.load dst (.arAddGr a)) r, 0⟩
  | .ldArSetGr p dst a r => ⟨.scalar p (.load dst (.arSetGr a)) r, 0⟩
  | .ldArSetConst p dst a k r => ⟨.scalar p (.load dst (.arSetConst a)) r, k⟩
  | .ldArAddConst p dst a neg k r => ⟨.scalar p (.load dst (.addConst neg a)) r, k⟩
  | .ldVctl p dst m k r => ⟨.scalar p (.load (.vctl dst) m) r, (SLeft.constOf (.load (.vctl dst) m) k)⟩
  | .stConst p src k r => ⟨.scalar p (.store .const src) r, k⟩
  | .stAr p a src r => ⟨.scalar p (.store (.ar a) src) r, 0⟩
  | .stGr p a src r => ⟨.scalar p (.store (.gr a) src) r, 0⟩
  | .stArInc p a src r => ⟨.scalar p (.store (.arInc a) src) r, 0⟩
  | .stDecAr p a src r => ⟨.scalar p (.store (.decAr a) src) r, 0⟩
  | .stArIncGr p a src r => ⟨.scalar p (.store (.arIncGr a) src) r, 0⟩
  | .stArAddGr p a src r => ⟨.scalar p (.store (.arAddGr a) src) r, 0⟩
  | .stArSetGr p a src r => ⟨.scalar p (.store (.arSetGr a) src) r, 0⟩
  | .stArSetConst p a src k r => ⟨.scalar p (.store (.arSetConst a) src) r, k⟩
  | .stArAddConst p a neg src k r => ⟨.scalar p (.store (.addConst neg a) src) r, k⟩
  | .pushAr p src r => ⟨.scalar p (.push (.ar src)) r, 0⟩
  | .pushGr p src r => ⟨.scalar p (.push (.gr src)) r, 0⟩
  | .pushPair p src r => ⟨.scalar p (.push (.pair src)) r, 0⟩
  | .popAr p d r => ⟨.scalar p (.pop (.ar d)) r, 0⟩
  | .popGr p d r => ⟨.scalar p (.pop (.gr d)) r, 0⟩
  | .popPair p d r => ⟨.scalar p (.pop (.pair d)) r, 0⟩
  | .popDrop p r => ⟨.scalar p .popDrop r, 0⟩
  | .stackOther p isPop reg r => ⟨.scalar p (.stackReg isPop reg) r, 0⟩
  | .cpArAr p d src r => ⟨.scalar p (.copy (.ar d) (.ar src)) r, 0⟩
  | .cpGrAr p d src r => ⟨.scalar p (.copy (.gr d) (.ar src)) r, 0⟩
  | .cpArGr p d src r => ⟨.scalar p (.copy (.ar d) (.gr src)) r, 0⟩
  | .cpGrGr p d src r => ⟨.scalar p (.copy (.gr d) (.gr src)) r, 0⟩
  | .cpPairPair p d src r => ⟨.scalar p (.copy (.pair d) (.pair src)) r, 0⟩
  | .cpPairAr p d src r => ⟨.scalar p (.copy (.pair d) (.ar src)) r, 0⟩
  | .cpPairGr p d src r => ⟨.scalar p (.copy (.pair d) (.gr src)) r, 0⟩
  | .cpVHalfAr p d src r => ⟨.scalar p (.copy (.vctl (.half d)) (.ar src)) r, 0⟩
  | .cpVHalfGr p d src r => ⟨.scalar p (.copy (.vctl (.half d)) (.gr src)) r, 0⟩
  | .cpVRegAr p d src r => ⟨.scalar p (.copy (.vctl (.full d)) (.ar src)) r, 0⟩
  | .cpVRegGr p d src r => ⟨.scalar p (.copy (.vctl (.full d)) (.gr src)) r, 0⟩
  | .cpVRegPair p d src r => ⟨.scalar p (.copy (.vctl (.full d)) (.pair src)) r, 0⟩
  | .cpArSpec p d src r => ⟨.scalar p (.copy (.ar d) (.special (.one src))) r, 0⟩
  | .cpGrSpec p d src r => ⟨.scalar p (.copy (.gr d) (.special (.one src))) r, 0⟩
  | .cpPairSpec p d src r => ⟨.scalar p (.copy (.pair d) (.special src)) r, 0⟩
  | .cpSpecPrim p d src r => ⟨.scalar p (.copy (.special d) src.reg) r, 0⟩
  | .cpOther p d src r => ⟨.scalar p (.copy d src) r, 0⟩
  | .setAr p d k r => ⟨.scalar p (.setConst (.ar d)) r, k⟩
  | .setGr p d k r => ⟨.scalar p (.setConst (.gr d)) r, k⟩
  | .setPair p d k r => ⟨.scalar p (.setConst (.pair d)) r, k⟩
  | .setSpec p d k r => ⟨.scalar p (.setConst (.special d)) r, k⟩
  | .setVHalf p d k r => ⟨.scalar p (.setConst (.vctl (.half d))) r, k⟩
  | .setVReg p d k r => ⟨.scalar p (.setConst (.vctl (.full d))) r, k⟩
  | .amMovAr p d src r => ⟨.scalar p (.arMod (.movAr d src)) r, 0⟩
  | .amMovGr p d src r => ⟨.scalar p (.arMod (.movGr d src)) r, 0⟩
  | .amAddGr p d src r => ⟨.scalar p (.arMod (.addGr d src)) r, 0⟩
  | .amAddConst p d src neg k r => ⟨.scalar p (.arMod (.addSubConst neg d src)) r, k⟩
  | .amSetConst p d k r => ⟨.scalar p (.arMod (.setConst d)) r, k⟩
  | .amInc p d r => ⟨.scalar p (.arMod (.inc d)) r, 0⟩
  | .amDec p d r => ⟨.scalar p (.arMod (.dec d)) r, 0⟩
  | .amIncGr p d neg r => ⟨.scalar p (.arMod (.incDecGr neg d)) r, 0⟩
  | .amIncConst p d k r => ⟨.scalar p (.arMod (.incConst d)) r, k⟩
  | .amDecConst p d k r => ⟨.scalar p (.arMod (.decConst d)) r, k⟩
  | .pswrSet p k r => ⟨.scalar p .pswrSet r, k⟩
  | .pswrClear p k r => ⟨.scalar p .pswrClear r, k⟩
  | .gotoK p c dl k r => ⟨.scalar p (.xfer c dl (.goto .const)) r, k⟩
  | .gotoAr p c dl src r => ⟨.scalar p (.xfer c dl (.goto (.ar src))) r, 0⟩
  | .gotoGr p c dl src r => ⟨.scalar p (.xfer c dl (.goto (.gr src))) r, 0⟩
  | .gotoArGr p c dl src r => ⟨.scalar p (.xfer c dl (.goto (.arGr src))) r, 0⟩
  | .gotoArK p c dl src neg k r => ⟨.scalar p (.xfer c dl (.goto (.arConst neg src))) r, k⟩
  | .skipK p c dl k r => ⟨.scalar p (.xfer c dl (.skip .const)) r, k⟩
  | .skipGr p c dl src r => ⟨.scalar p (.xfer c dl (.skip (.gr src))) r, 0⟩
  | .callK p c dl k r => ⟨.scalar p (.xfer c dl (.call .const)) r, k⟩
  | .callAr p c dl src r => ⟨.scalar p (.xfer c dl (.call (.ar src))) r, 0⟩
  | .callGr p c dl src r => ⟨.scalar p (.xfer c dl (.call (.gr src))) r, 0⟩
  | .callArGr p c dl src r => ⟨.scalar p (.xfer c dl (.call (.arGr src))) r, 0⟩
  | .callArK p c dl src neg k r => ⟨.scalar p (.xfer c dl (.call (.arConst neg src))) r, k⟩
  | .callrelK p c dl k r => ⟨.scalar p (.xfer c dl (.callrel .const)) r, k⟩
  | .callrelGr p c dl src r => ⟨.scalar p (.xfer c dl (.callrel (.gr src))) r, 0⟩
  | .ret p c dl r => ⟨.scalar p (.xfer c dl .ret) r, 0⟩
  | .iret p c dl r => ⟨.scalar p (.xfer c dl .iret) r, 0⟩
  | .add p l k nf d a b => ⟨.scalar p l (.alu (.withDst nf d) .add a b), (l.constOf k)⟩
  | .addTo p l k nf d b => ⟨.scalar p l (.alu (.withDst nf d) .add d b), (l.constOf k)⟩
  | .inc p l k nf d a => ⟨.scalar p l (.alu (.withDst nf d) .inc a 0), (l.constOf k)⟩
  | .incSelf p l k nf d => ⟨.scalar p l (.alu (.withDst nf d) .inc d 0), (l.constOf k)⟩
  | .sub p l k nf d a b => ⟨.scalar p l (.alu (.withDst nf d) .sub a b), (l.constOf k)⟩
  | .subFrom p l k nf d b => ⟨.scalar p l (.alu (.withDst nf d) .sub d b), (l.constOf k)⟩
  | .dec p l k nf d a => ⟨.scalar p l (.alu (.withDst nf d) .dec a 0), (l.constOf k)⟩
  | .decSelf p l k nf d => ⟨.scalar p l (.alu (.withDst nf d) .dec d 0), (l.constOf k)⟩
  | .addC p l k nf d a => ⟨.scalar p l (.alu (.withDst nf d) .addC a 0), (l.constOf k)⟩
  | .addBC p l k nf d a b => ⟨.scalar p l (.alu (.withDst nf d) .addBC a b), (l.constOf k)⟩
  | .subC p l k nf d a => ⟨.scalar p l (.alu (.withDst nf d) .subC a 0), (l.constOf k)⟩
  | .subBC p l k nf d a b => ⟨.scalar p l (.alu (.withDst nf d) .subBC a b), (l.constOf k)⟩
  | .negGr p l k nf d a => ⟨.scalar p l (.alu (.withDst nf d) .neg a 0), (l.constOf k)⟩
  | .mulFirst p l k nf d a => ⟨.scalar p l (.alu (.withDst nf d) .mulFirst a 7), (l.constOf k)⟩
  | .mulNext p l k nf d a => ⟨.scalar p l (.alu (.withDst nf d) .mulNext a 7), (l.constOf k)⟩
  | .addFlags p l k a b => ⟨.scalar p l (.alu .flagsOnly .add a b), (l.constOf k)⟩
  | .orGr p l k nf d a b => ⟨.scalar p l (.alu (.withDst nf d) .or a b), (l.constOf k)⟩
  | .andGr p l k nf d a b => ⟨.scalar p l (.alu (.withDst nf d) .and a b), (l.constOf k)⟩
  | .xorGr p l k nf d a b => ⟨.scalar p l (.alu (.withDst nf d) .xor a b), (l.constOf k)⟩
  | .notGr p l k nf d a => ⟨.scalar p l (.alu (.withDst nf d) .not a 0), (l.constOf k)⟩
  | .notAorB p l k nf d a b => ⟨.scalar p l (.alu (.withDst nf d) .notAorB a b), (l.constOf k)⟩
  | .aOrNotB p l k nf d a b => ⟨.scalar p l (.alu (.withDst nf d) .AorNotB a b), (l.constOf k)⟩
  | .copyGr p l k nf d a => ⟨.scalar p l (.alu (.withDst nf d) .copy a 0), (l.constOf k)⟩
  | .notAorNotB p l k nf d a b => ⟨.scalar p l (.alu (.withDst nf d) .notAorNotB a b), (l.constOf k)⟩
  | .notAandB p l k nf d a b => ⟨.scalar p l (.alu (.withDst nf d) .notAandB a b), (l.constOf k)⟩
  | .aAndNotB p l k nf d a b => ⟨.scalar p l (.alu (.withDst nf d) .AandNotB a b), (l.constOf k)⟩
  | .notAandNotB p l k nf d a b => ⟨.scalar p l (.alu (.withDst nf d) .notAandNotB a b), (l.constOf k)⟩
  | .notAxorB p l k nf d a b => ⟨.scalar p l (.alu (.withDst nf d) .notAxorB a b), (l.constOf k)⟩
  | .aXorNotB p l k nf d a b => ⟨.scalar p l (.alu (.withDst nf d) .AxorNotB a b), (l.constOf k)⟩
  | .setFalse p l k nf d => ⟨.scalar p l (.alu (.withDst nf d) .fls 0 0), (l.constOf k)⟩
  | .setTrue p l k nf d => ⟨.scalar p l (.alu (.withDst nf d) .tru 0 0), (l.constOf k)⟩
  | .testGr p l k a => ⟨.scalar p l (.alu .flagsOnly .copy a 0), (l.constOf k)⟩
  | .testNeg p l k a => ⟨.scalar p l (.alu .flagsOnly .neg a 0), (l.constOf k)⟩
  | .testExpr p l k fn a b => ⟨.scalar p l (.alu .flagsOnly fn a b), (l.constOf k)⟩
  | .flagsTrue p l k => ⟨.scalar p l (.alu .flagsOnly .tru 0 0), (l.constOf k)⟩
  | .flagsFalse p l k => ⟨.scalar p l (.alu .flagsOnly .fls 0 0), (l.constOf k)⟩
  | .shl p l k d a n => ⟨.scalar p l (.shift .shl d a n), (l.constOf k)⟩
  | .shr p l k d a n => ⟨.scalar p l (.shift .shr d a n), (l.constOf k)⟩
  | .sar p l k d a n => ⟨.scalar p l (.shift .sar d a n), (l.constOf k)⟩
  | .rol p l k d a n => ⟨.scalar p l (.shift .rol d a n), (l.constOf k)⟩
  | .ror p l k d a n => ⟨.scalar p l (.shift .ror d a n), (l.constOf k)⟩
  | .rcl p l k d a => ⟨.scalar p l (.shift .rcl d a 1), (l.constOf k)⟩
  | .rcr p l k d a => ⟨.scalar p l (.shift .rcr d a 1), (l.constOf k)⟩
  | .vLdData p n m f w r => ⟨.vector p n ⟨.load .data m, f, w⟩ r, 0⟩
  | .vLdRam p n m f w r => ⟨.vector p n ⟨.load .ram m, f, w⟩ r, 0⟩
  | .vLdWfifo p n m f w r => ⟨.vector p n ⟨.load .wfifo m, f, w⟩ r, 0⟩
  | .vLdAr p n b a f w r => ⟨.vector p n ⟨.load b (.ar a), f, w⟩ r, 0⟩
  | .vLdGr p n b a f w r => ⟨.vector p n ⟨.load b (.gr a), f, w⟩ r, 0⟩
  | .vLdArSetGr p n b a f w r => ⟨.vector p n ⟨.load b (.arSetGr a), f, w⟩ r, 0⟩
  | .vLdArInc p n b a f w r => ⟨.vector p n ⟨.load b (.arInc a), f, w⟩ r, 0⟩
  | .vLdDecAr p n b a f w r => ⟨.vector p n ⟨.load b (.decAr a), f, w⟩ r, 0⟩
  | .vLdArIncGr p n b a f w r => ⟨.vector p n ⟨.load b (.arIncGr a), f, w⟩ r, 0⟩
  | .vLdArAddGr p n b a f w r => ⟨.vector p n ⟨.load b (.arAddGr a), f, w⟩ r, 0⟩
  | .vSt p n m f w r => ⟨.vector p n ⟨.store m false, f, w⟩ r, 0⟩
  | .vStRam p n m f w r => ⟨.vector p n ⟨.store m true, f, w⟩ r, 0⟩
  | .vStAr p n a f w r => ⟨.vector p n ⟨.store (.ar a) false, f, w⟩ r, 0⟩
  | .vStGr p n a f w r => ⟨.vector p n ⟨.store (.gr a) false, f, w⟩ r, 0⟩
  | .vStArSetGr p n a f w r => ⟨.vector p n ⟨.store (.arSetGr a) false, f, w⟩ r, 0⟩
  | .vStArInc p n a f w r => ⟨.vector p n ⟨.store (.arInc a) false, f, w⟩ r, 0⟩
  | .vStDecAr p n a f w r => ⟨.vector p n ⟨.store (.decAr a) false, f, w⟩ r, 0⟩
  | .vStArIncGr p n a f w r => ⟨.vector p n ⟨.store (.arIncGr a) false, f, w⟩ r, 0⟩
  | .vStArAddGr p n a f w r => ⟨.vector p n ⟨.store (.arAddGr a) false, f, w⟩ r, 0⟩
  | .vStRamCopy p n m f w r => ⟨.vector p n ⟨.store m true, f, w⟩ r, 0⟩
  | .vNoLeft p n r => ⟨.vector p n ⟨.none, false, false⟩ r, 0⟩
  | .vnul p => ⟨.bare p .vnul, 0⟩
  | .wfifoLd p n m r => ⟨.vector p n ⟨.load .wfifo m, false, false⟩ r, 0⟩
  | .wfifoLdFtw p n m r => ⟨.vector p n ⟨.load .wfifo m, true, false⟩ r, 0⟩
  | .wfifoLdFtwWtw p n m r => ⟨.vector p n ⟨.load .wfifo m, true, true⟩ r, 0⟩
  | .ftw p => ⟨.bare p .ftw, 0⟩
  | .ftwWith p n w r => ⟨.vector p n ⟨.none, true, w⟩ r, 0⟩
  | .wtw p o => ⟨.wtwRow p o, 0⟩
  | .ftwWtw p => ⟨.bare p .ftwWtw, 0⟩
  | .vNoRight p n l => ⟨.vector p n l .none, 0⟩
  | .vOr p n l x y => ⟨.vector p n l (.logic .or false false ⟨false, x⟩ ⟨false, y⟩), 0⟩
  | .vAnd p n l x y => ⟨.vector p n l (.logic .and false false ⟨false, x⟩ ⟨false, y⟩), 0⟩
  | .vXor p n l x y => ⟨.vector p n l (.logic .xor false false ⟨false, x⟩ ⟨false, y⟩), 0⟩
  | .vNot p n l x => ⟨.vector p n l (.logic .or true false ⟨false, x⟩ ⟨false, .null⟩), 0⟩
  | .vNotOr p n l x y => ⟨.vector p n l (.logic .or true false ⟨false, x⟩ ⟨false, y⟩), 0⟩
  | .vOrNot p n l x y => ⟨.vector p n l (.logic .or false true ⟨false, x⟩ ⟨false, y⟩), 0⟩
  | .vNotOrNot p n l x y => ⟨.vector p n l (.logic .or true true ⟨false, x⟩ ⟨false, y⟩), 0⟩
  | .vNotAnd p n l x y => ⟨.vector p n l (.logic .and true false ⟨false, x⟩ ⟨false, y⟩), 0⟩
  | .vAndNot p n l x y => ⟨.vector p n l (.logic .and false true ⟨false, x⟩ ⟨false, y⟩), 0⟩
  | .vNotAndNot p n l x y => ⟨.vector p n l (.logic .and true true ⟨false, x⟩ ⟨false, y⟩), 0⟩
  | .vNotXor p n l x y => ⟨.vector p n l (.logic .xor true false ⟨false, x⟩ ⟨false, y⟩), 0⟩
  | .vFalse p n l => ⟨.vector p n l (.fill false), 0⟩
  | .vTrue p n l => ⟨.vector p n l (.fill true), 0⟩
  | .vAdd p n l x y => ⟨.vector p n l (.arith false ⟨false, x⟩ ⟨false, y⟩), 0⟩
  | .vSub p n l x y => ⟨.vector p n l (.arith true ⟨false, x⟩ ⟨false, y⟩), 0⟩
  | .vNegY p n l y => ⟨.vector p n l (.arith true ⟨false, .null⟩ ⟨false, y⟩), 0⟩
  | .vInc p n l x => ⟨.vector p n l (.arith false ⟨false, x⟩ ⟨false, .one⟩), 0⟩
  | .vOne p n l => ⟨.vector p n l (.arith false ⟨false, .null⟩ ⟨false, .one⟩), 0⟩
  | .vDec p n l x => ⟨.vector p n l (.arith true ⟨false, x⟩ ⟨false, .one⟩), 0⟩
  | .vMinusOne p n l => ⟨.vector p n l (.arith true ⟨false, .null⟩ ⟨false, .one⟩), 0⟩
  | .vMask p n l m x y => ⟨.vector p n l (.mask m false ⟨false, x⟩ ⟨false, y⟩), 0⟩
  | .vMaskShift p n l m x y => ⟨.vector p n l (.mask m true ⟨false, x⟩ ⟨false, y⟩), 0⟩
  | .vSum0 p n l x => ⟨.vector p n l (.vsum none false ⟨false, x⟩ ⟨false, .null⟩), 0⟩
  | .vSumY p n l x y => ⟨.vector p n l (.vsum none false ⟨false, x⟩ ⟨false, y⟩), 0⟩
  | .vSumMask p n l m x y => ⟨.vector p n l (.vsum (some m) false ⟨false, x⟩ ⟨false, y⟩), 0⟩
  | .vSumShift p n l m x y => ⟨.vector p n l (.vsum m true ⟨false, x⟩ ⟨false, y⟩), 0⟩
  | .vActXOr p n l x y => ⟨.vector p n l (.logic .or false false ⟨true, x⟩ ⟨false, y⟩), 0⟩
  | .vNotActXAnd p n l x y => ⟨.vector p n l (.logic .and true false ⟨true, x⟩ ⟨false, y⟩), 0⟩
  | .vOrActY p n l x y => ⟨.vector p n l (.logic .or false false ⟨false, x⟩ ⟨true, y⟩), 0⟩
  | .vAndNotActY p n l x y => ⟨.vector p n l (.logic .and false true ⟨false, x⟩ ⟨true, y⟩), 0⟩
  | .vActXXorActY p n l x y => ⟨.vector p n l (.logic .xor false false ⟨true, x⟩ ⟨true, y⟩), 0⟩
  | .vNotActXAndNotActY p n l x y => ⟨.vector p n l (.logic .and true true ⟨true, x⟩ ⟨true, y⟩), 0⟩
  | .vMaskActX p n l m x y => ⟨.vector p n l (.mask m false ⟨true, x⟩ ⟨false, y⟩), 0⟩
  | .vMaskActY p n l m x y => ⟨.vector p n l (.mask m false ⟨false, x⟩ ⟨true, y⟩), 0⟩
  | .vMaskActXY p n l m x y => ⟨.vector p n l (.mask m false ⟨true, x⟩ ⟨true, y⟩), 0⟩
  | .vMaskShiftActX p n l m x y => ⟨.vector p n l (.mask m true ⟨true, x⟩ ⟨false, y⟩), 0⟩
  | .vActXAdd p n l x y => ⟨.vector p n l (.arith false ⟨true, x⟩ ⟨false, y⟩), 0⟩
  | .vSubActY p n l x y => ⟨.vector p n l (.arith true ⟨false, x⟩ ⟨true, y⟩), 0⟩
  | .vActXAddActY p n l x y => ⟨.vector p n l (.arith false ⟨true, x⟩ ⟨true, y⟩), 0⟩
  | .vSumActX p n l x y => ⟨.vector p n l (.vsum none false ⟨true, x⟩ ⟨false, y⟩), 0⟩
  | .vSumActY p n l x y => ⟨.vector p n l (.vsum none false ⟨false, x⟩ ⟨true, y⟩), 0⟩
  | .vSumMaskActXY p n l m x y => ⟨.vector p n l (.vsum (some m) false ⟨true, x⟩ ⟨true, y⟩), 0⟩
  | .vSumShiftActX p n l x => ⟨.vector p n l (.vsum none true ⟨true, x⟩ ⟨false, .null⟩), 0⟩
  | .vAnyActivated p n l r => ⟨.vector p n l r, 0⟩
  | .storeVregs p n l => ⟨.vector p n l .storeRegs, 0⟩

/-- The constructor chosen for a scalar instruction: that of its left part's row (entry 22). -/
def Instr.ofScalar (p : Bool) (l : SLeft) (k : Word) (r : SRight) : Instr :=
  match l with
  | .nul => .nul p r
  | .nulC => .nulK p k r
  | .load d .const => .ldConst p d k r
  | .load d (.ar a) => .ldAr p d a r
  | .load d (.gr a) => .ldGr p d a r
  | .load d (.arInc a) => .ldArInc p d a r
  | .load d (.decAr a) => .ldDecAr p d a r
  | .load d (.arIncGr a) => .ldArIncGr p d a r
  | .load d (.arAddGr a) => .ldArAddGr p d a r
  | .load d (.arSetGr a) => .ldArSetGr p d a r
  | .load d (.arSetConst a) => .ldArSetConst p d a k r
  | .load d (.arAddConst a) => .ldArAddConst p d a false k r
  | .load d (.arSubConst a) => .ldArAddConst p d a true k r
  | .store .const s => .stConst p s k r
  | .store (.ar a) s => .stAr p a s r
  | .store (.gr a) s => .stGr p a s r
  | .store (.arInc a) s => .stArInc p a s r
  | .store (.decAr a) s => .stDecAr p a s r
  | .store (.arIncGr a) s => .stArIncGr p a s r
  | .store (.arAddGr a) s => .stArAddGr p a s r
  | .store (.arSetGr a) s => .stArSetGr p a s r
  | .store (.arSetConst a) s => .stArSetConst p a s k r
  | .store (.arAddConst a) s => .stArAddConst p a false s k r
  | .store (.arSubConst a) s => .stArAddConst p a true s k r
  | .push (.ar s) => .pushAr p s r
  | .push (.gr s) => .pushGr p s r
  | .push (.pair s) => .pushPair p s r
  | .push (.special x) => .stackOther p false (.special x) r
  | .push (.vctl c) => .stackOther p false (.vctl c) r
  | .pop (.ar d) => .popAr p d r
  | .pop (.gr d) => .popGr p d r
  | .pop (.pair d) => .popPair p d r
  | .pop (.special x) => .stackOther p true (.special x) r
  | .pop (.vctl c) => .stackOther p true (.vctl c) r
  | .popDrop => .popDrop p r
  | .copy (.ar d) (.ar s) => .cpArAr p d s r
  | .copy (.gr d) (.ar s) => .cpGrAr p d s r
  | .copy (.ar d) (.gr s) => .cpArGr p d s r
  | .copy (.gr d) (.gr s) => .cpGrGr p d s r
  | .copy (.pair d) (.pair s) => .cpPairPair p d s r
  | .copy (.pair d) (.ar s) => .cpPairAr p d s r
  | .copy (.pair d) (.gr s) => .cpPairGr p d s r
  | .copy (.vctl (.half d)) (.ar s) => .cpVHalfAr p d s r
  | .copy (.vctl (.half d)) (.gr s) => .cpVHalfGr p d s r
  | .copy (.vctl (.full d)) (.ar s) => .cpVRegAr p d s r
  | .copy (.vctl (.full d)) (.gr s) => .cpVRegGr p d s r
  | .copy (.vctl (.full d)) (.pair s) => .cpVRegPair p d s r
  | .copy (.ar d) (.special (.one s)) => .cpArSpec p d s r
  | .copy (.gr d) (.special (.one s)) => .cpGrSpec p d s r
  | .copy (.pair d) (.special s) => .cpPairSpec p d s r
  | .copy (.special d) (.ar s) => .cpSpecPrim p d (.ar s) r
  | .copy (.special d) (.gr s) => .cpSpecPrim p d (.gr s) r
  | .copy d s => .cpOther p d s r
  | .setConst (.ar d) => .setAr p d k r
  | .setConst (.gr d) => .setGr p d k r
  | .setConst (.pair d) => .setPair p d k r
  | .setConst (.special d) => .setSpec p d k r
  | .setConst (.vctl (.half d)) => .setVHalf p d k r
  | .setConst (.vctl (.full d)) => .setVReg p d k r
  | .arMod (.movAr d s) => .amMovAr p d s r
  | .arMod (.movGr d s) => .amMovGr p d s r
  | .arMod (.addGr d s) => .amAddGr p d s r
  | .arMod (.addConst d s) => .amAddConst p d s false k r
  | .arMod (.subConst d s) => .amAddConst p d s true k r
  | .arMod (.setConst d) => .amSetConst p d k r
  | .arMod (.inc d) => .amInc p d r
  | .arMod (.dec d) => .amDec p d r
  | .arMod (.incGr d) => .amIncGr p d false r
  | .arMod (.decGr d) => .amIncGr p d true r
  | .arMod (.incConst d) => .amIncConst p d k r
  | .arMod (.decConst d) => .amDecConst p d k r
  | .pswrSet => .pswrSet p k r
  | .pswrClear => .pswrClear p k r
  | .xfer c dl (.goto .const) => .gotoK p c dl k r
  | .xfer c dl (.goto (.ar s)) => .gotoAr p c dl s r
  | .xfer c dl (.goto (.gr s)) => .gotoGr p c dl s r
  | .xfer c dl (.goto (.arGr s)) => .gotoArGr p c dl s r
  | .xfer c dl (.goto (.arAdd s)) => .gotoArK p c dl s false k r
  | .xfer c dl (.goto (.arSub s)) => .gotoArK p c dl s true k r
  | .xfer c dl (.skip .const) => .skipK p c dl k r
  | .xfer c dl (.skip (.gr s)) => .skipGr p c dl s r
  | .xfer c dl (.call .const) => .callK p c dl k r
  | .xfer c dl (.call (.ar s)) => .callAr p c dl s r
  | .xfer c dl (.call (.gr s)) => .callGr p c dl s r
  | .xfer c dl (.call (.arGr s)) => .callArGr p c dl s r
  | .xfer c dl (.call (.arAdd s)) => .callArK p c dl s false k r
  | .xfer c dl (.call (.arSub s)) => .callArK p c dl s true k r
  | .xfer c dl (.callrel .const) => .callrelK p c dl k r
  | .xfer c dl (.callrel (.gr s)) => .callrelGr p c dl s r
  | .xfer c dl .ret => .ret p c dl r
  | .xfer c dl .iret => .iret p c dl r

/-- The constructor chosen for a vector instruction with a repetition count. -/
def Instr.ofVector (p : Bool) (n : Rep) (l : VLeft) (r : VRight) : Instr :=
  match l with
  | ⟨.load .data m, f, w⟩ => .vLdData p n m f w r
  | ⟨.load .ram m, f, w⟩ => .vLdRam p n m f w r
  | ⟨.load .wfifo m, f, w⟩ => .vLdWfifo p n m f w r
  | ⟨.store m false, f, w⟩ => .vSt p n m f w r
  | ⟨.store m true, f, w⟩ => .vStRam p n m f w r
  | ⟨.none, true, w⟩ => .ftwWith p n w r
  | ⟨.none, false, true⟩ => .wtw p (some (n, r))
  | ⟨.none, false, false⟩ => .vNoLeft p n r

/-- The constructor chosen for an instruction of R264. -/
def Instr.ofCode (c : Code) : Instr :=
  match c.low with
  | .scalar p l r => .ofScalar p l c.k r
  | .vector p n l r => .ofVector p n l r
  | .bare p .ftw => .ftw p
  | .bare p .wtw => .wtw p none
  | .bare p .ftwWtw => .ftwWtw p
  | .bare p .vnul => .vnul p

/-- The same instruction written with the constructor chosen for it (entry 22). -/
def Instr.canon (i : Instr) : Instr := .ofCode i.code

end Sys2Proof
end

