-- ==== Sys2Proof/Machine/Forms.lean ====
section
/-! DEFINITION. The instruction values that are outside the source's tables (spec/30_encoding.md R325,
spec/93_implementation_defined.md): each has the name of a defect, with which the machine refuses it. -/

namespace Sys2Proof

/-- Why an instruction value is outside the tables. A value with a defect has no behaviour in the source:
the machine refuses it (safe). -/
inductive Defect
  /-- pc, or (pswr, pc), read as data (spec/10_state.md R42, spec/41 R402). -/
  | pcAsData
  /-- pc, or (pswr, pc), as a destination (R46, R333, R388). -/
  | pcAsDestination
  /-- intr as a destination (R70). -/
  | intrAsDestination
  /-- intr as the source of a store or a push (spec/40 R333, R388). -/
  | intrStored
  /-- A vector control register read by an instruction (R126, R333). -/
  | writeOnlySource
  /-- A 64-bit source with a 32-bit destination (R404). -/
  | narrowingCopy
  /-- Address registers of both DAG groups in an address modification (R450). -/
  | dagGroups
  /-- Both parts write the same general-purpose register (R548). -/
  | bothPartsWriteGr
  /-- A multiply step without a destination (spec/43_scalar_alu.md R597). -/
  | multiplyFlagsOnly
  /-- A multiply step whose second operand is not gr7 (R575, R576). -/
  | multiplyOperand
  /-- A value of R264 with a register in the place of an operand its operation does not have: no form of the
  source (R552 to R562, R583, R586, R593, R594). -/
  | surplusOperand
  /-- `C<<` or `C>>` by other than 1 (R325, R606, R607); by 0 or 32 it is no operation (R600). -/
  | rotateAmount
  /-- An operand source, `activate`, `not` or `shift` where no table has it (spec/45_vector_right.md R716). -/
  | operandOutsideTables
  /-- `store vregs` with a count other than 5 (R716, R790). -/
  | storeVregsCount
  /-- `wtw` beside an arithmetic or `vsum` right part (spec/44_vector_left.md R637). -/
  | wtwWithArithmetic
  deriving DecidableEq, Repr

/-! ### Registers -/

/-- Whether a register name is 64 bits wide (R401). -/
def Reg.wide : Reg → Bool
  | .pair _ | .special (.two _) | .vctl (.full _) => true
  | .ar _ | .gr _ | .special (.one _) | .vctl (.half _) => false

/-- Whether a register cannot be read as data (R401, R402). -/
def Reg.srcDefect : Reg → Option Defect
  | .special (.one .pc) | .special (.two .pswrpc) => some .pcAsData
  | .vctl _ => some .writeOnlySource
  | _ => none

/-- Whether a register cannot be written (R401, R403). -/
def Reg.dstDefect : Reg → Option Defect
  | .special (.one .pc) | .special (.two .pswrpc) => some .pcAsDestination
  | .special (.one .intr) => some .intrAsDestination
  | _ => none

/-- Whether a register cannot be stored or pushed (R333, R388). -/
def Reg.storeDefect : Reg → Option Defect
  | .special (.one .intr) => some .intrStored
  | r => r.srcDefect

/-- The general-purpose register a destination contains. -/
def Reg.grPart : Reg → Option Ix
  | .gr n | .pair n => some n
  | _ => none

/-! ### Scalar parts -/

/-- Whether two address registers are in different DAG groups (R33, R450). -/
def dagDefect (d s : Ix) : Option Defect := if d.val < 4 ↔ s.val < 4 then none else some .dagGroups

/-- The defect of an address modification. -/
def ArOp.defect : ArOp → Option Defect
  | .movAr d s | .addGr d s | .addConst d s | .subConst d s => dagDefect d s
  | _ => none

/-- The width defect of a copy (R404). -/
def copyDefect (dst src : Reg) : Option Defect := if src.wide && !dst.wide then some .narrowingCopy else none

/-- The defect of a scalar left part. -/
def SLeft.defect : SLeft → Option Defect
  | .load d _ | .pop d | .setConst d => d.dstDefect
  | .store _ s | .push s => s.storeDefect
  | .copy d s => (s.srcDefect.or d.dstDefect).or (copyDefect d s)
  | .arMod o => o.defect
  | .nul | .nulC | .popDrop | .pswrSet | .pswrClear | .xfer _ _ _ => none

/-- The general-purpose register a scalar left part writes. -/
def SLeft.grWrite : SLeft → Option Ix
  | .load d _ | .pop d | .setConst d | .copy d _ => d.grPart
  | _ => none

/-- Whether a function is a multiply step. -/
def AluFn.isMul : AluFn → Bool
  | .mulFirst | .mulNext => true
  | _ => false

/-- The destination of an ALU form. -/
def AluForm.dst : AluForm → Option Ix
  | .std d | .noflags d => some d
  | .flagsOnly => none

/-- A shift by 0 or 32 is no operation (R600). -/
def shiftIsNul (n : Fin 33) : Bool := n == 0 || n == 32

/-- The general-purpose registers a scalar right part writes; a multiply step also writes gr7 (R575). -/
def SRight.grWrites : SRight → List Ix
  | .nul => []
  | .alu f fn _ _ => f.dst.toList ++ (if fn.isMul then [7] else [])
  | .shift _ d _ n => if shiftIsNul n then [] else [d]

/-- The defect of the operands of a function: a multiply step has gr7 as its second operand (R575, R576), an
operand that a function does not have is written as register 0. -/
def AluFn.operandDefect (fn : AluFn) (a b : Ix) : Option Defect :=
  match fn with
  | .mulFirst | .mulNext => if b = 7 then none else some .multiplyOperand
  | .inc | .dec | .addC | .subC | .neg | .not | .copy => if b = 0 then none else some .surplusOperand
  | .fls | .tru => if a = 0 ∧ b = 0 then none else some .surplusOperand
  | .add | .sub | .addBC | .subBC | .or | .and | .xor | .notAorB | .AorNotB | .notAorNotB | .notAandB
  | .AandNotB | .notAandNotB | .notAxorB | .AxorNotB => none

/-- Whether a shift kind rotates through the carry bit: its amount is 1 (R606, R607). -/
def ShiftKind.throughCarry : ShiftKind → Bool
  | .rcl | .rcr => true
  | .shl | .shr | .sar | .rol | .ror => false

/-- The defect of a scalar right part (R575, R576, R597, R606, R607). -/
def SRight.defect : SRight → Option Defect
  | .nul => none
  | .alu f fn a b => (if fn.isMul && f.dst.isNone then some .multiplyFlagsOnly else none).or (fn.operandDefect a b)
  | .shift k _ _ n => if k.throughCarry && !shiftIsNul n && n != 1 then some .rotateAmount else none

/-- The defect of two parts together (R548). -/
def pairDefect (l : SLeft) (r : SRight) : Option Defect :=
  match l.grWrite with
  | some d => if d ∈ r.grWrites then some .bothPartsWriteGr else none
  | none => none

/-- The defect of a scalar instruction. -/
def scalarDefect (l : SLeft) (r : SRight) : Option Defect :=
  (l.defect.or r.defect).or (pairDefect l r)

/-! ### Vector parts (R700, R716) -/

/-- An operand that is a buffer or, without `activate`, the null device. -/
def VArg.bufOrNull (a : VArg) : Bool :=
  match a.src with
  | .buf _ => true
  | .null => !a.act
  | .one | .vr => false

/-- An operand that is a buffer. -/
def VArg.isBuf (a : VArg) : Bool :=
  match a.src with
  | .buf _ => true
  | _ => false

/-- An operand `1`, without `activate`. -/
def VArg.isOne (a : VArg) : Bool := a.src == .one && !a.act

/-- An operand `vr`, without `activate`. -/
def VArg.isVr (a : VArg) : Bool := a.src == .vr && !a.act

/-- Whether the operands of a vector right part are those the tables have. -/
def VRight.operandsOk : VRight → Bool
  | .none | .fill _ | .storeRegs => true
  | .logic op _ notY x y => x.bufOrNull && y.bufOrNull && !(op == .xor && notY)
  | .arith _ x y => x.bufOrNull && (y.bufOrNull || y.isOne)
  | .mask _ _ x y => x.bufOrNull && y.bufOrNull
  | .vsum _ _ x y => x.isBuf && (y.bufOrNull || y.isVr)

/-- Whether a right part depends on nb2, sb2 or the Active Matrix (R637). -/
def VRight.usesActive : VRight → Bool
  | .arith _ _ _ | .vsum _ _ _ _ => true
  | .none | .logic _ _ _ _ _ | .fill _ | .mask _ _ _ _ | .storeRegs => false

/-- The defect of a vector instruction with a repetition count. -/
def vectorDefect (n : Rep) (l : VLeft) (r : VRight) : Option Defect :=
  if !r.operandsOk then some .operandOutsideTables
  else if r == .storeRegs && n != 4 then some .storeVregsCount
  else if l.wtw && r.usesActive then some .wtwWithArithmetic
  else none

/-! ### Instructions -/

/-- The defect of an instruction of R264. -/
def Low.defect : Low → Option Defect
  | .scalar _ l r => scalarDefect l r
  | .vector _ n l r => vectorDefect n l r
  | .bare _ _ => none

end Sys2Proof
end

