-- ==== Sys2Proof/Machine/Codec.lean ====
section
/-! DEFINITION. A numbering of the instructions of R264: every `Low` has a number of its own below 2^32. The
source gives no encoding (spec/30_encoding.md R262); the numbering only names the instructions for the parameter
Decode (entry 1). A number that is not the number of the value found for it (an operand the value does not have is
not 0) names no instruction: Decode leaves its word to the parameter `spareWord`. -/

namespace Sys2Proof

/-- A numbering of a type: `enc` gives numbers below `size`, and `dec` finds the value of a number. -/
structure Codec (α : Type) where
  size : Nat
  enc : α → Nat
  dec : Nat → Option α

namespace Codec

/-- What a numbering must satisfy. -/
structure Good {α : Type} (c : Codec α) : Prop where
  lt : ∀ a, c.enc a < c.size
  dec_enc : ∀ a, c.dec (c.enc a) = some a

/-- The numbering of a type by a list of its values. -/
def ofList {α : Type} [DecidableEq α] (l : List α) : Codec α where
  size := l.length
  enc a := l.idxOf a
  dec n := l[n]?

/-- The numbers below `n`. -/
def fin (n : Nat) : Codec (Fin n) where
  size := n
  enc a := a.val
  dec k := if h : k < n then some ⟨k, h⟩ else none

/-- Pairs. -/
def prod {α β : Type} (c : Codec α) (d : Codec β) : Codec (α × β) where
  size := c.size * d.size
  enc a := c.enc a.1 * d.size + d.enc a.2
  dec n := (c.dec (n / d.size)).bind fun a => (d.dec (n % d.size)).map fun b => (a, b)

/-- Alternatives. -/
def sum {α β : Type} (c : Codec α) (d : Codec β) : Codec (α ⊕ β) where
  size := c.size + d.size
  enc a := match a with | .inl x => c.enc x | .inr y => c.size + d.enc y
  dec n := if n < c.size then (c.dec n).map .inl else (d.dec (n - c.size)).map .inr

/-- A numbering carried over to another type. -/
def via {α β : Type} (c : Codec β) (f : α → β) (g : β → α) : Codec α where
  size := c.size
  enc a := c.enc (f a)
  dec n := (c.dec n).map g

end Codec

/-! ### Numberings of the parts -/

/-- Truth values. -/
def codecBool : Codec Bool := .ofList [false, true]

/-- Registers of the primary file. -/
def codecIx : Codec Ix := .fin 8

/-- Special registers. -/
def codecSpecReg : Codec SpecReg :=
  .ofList [.icc0, .ica0, .icc1, .ica1, .occ0, .oca0, .occ1, .oca1, .t0, .t1, .pswr, .lmicr, .gmicr, .pc, .intr]

/-- Special pairs. -/
def codecSpecPair : Codec SpecPair :=
  .ofList [.icc0ica0, .icc1ica1, .occ0oca0, .occ1oca1, .t0t1, .pswrpc]

/-- Special registers and pairs. -/
def codecSpecial : Codec Special :=
  (codecSpecReg.sum codecSpecPair).via
    (fun | .one r => .inl r | .two p => .inr p) (fun | .inl r => .one r | .inr p => .two p)

/-- Vector control registers and halves. -/
def codecVCtl : Codec VCtl :=
  .ofList [.half .nb1l, .half .nb1h, .half .sbl, .half .sbh, .half .f1crl, .half .f1crh, .half .f2crl,
    .half .f2crh, .half .vrl, .half .vrh, .full .nb1, .full .sb, .full .f1cr, .full .f2cr, .full .vr]

/-- Register names. -/
def codecReg : Codec Reg :=
  ((codecIx.sum codecIx).sum (codecIx.sum (codecSpecial.sum codecVCtl))).via
    (fun
      | .ar n => .inl (.inl n) | .gr n => .inl (.inr n)
      | .pair n => .inr (.inl n) | .special x => .inr (.inr (.inl x)) | .vctl c => .inr (.inr (.inr c)))
    (fun
      | .inl (.inl n) => .ar n | .inl (.inr n) => .gr n
      | .inr (.inl n) => .pair n | .inr (.inr (.inl x)) => .special x | .inr (.inr (.inr c)) => .vctl c)

/-- Scalar modes: the kind, and the register (none counts as 0). -/
def codecMode : Codec Mode :=
  ((codecBool).sum ((Codec.fin 10).prod codecIx)).via
    (fun
      | .const => .inl false
      | .ar n => .inr (0, n) | .gr n => .inr (1, n) | .arInc n => .inr (2, n) | .decAr n => .inr (3, n)
      | .arIncGr n => .inr (4, n) | .arAddGr n => .inr (5, n) | .arSetGr n => .inr (6, n)
      | .arSetConst n => .inr (7, n) | .arAddConst n => .inr (8, n) | .arSubConst n => .inr (9, n))
    (fun
      | .inl _ => .const
      | .inr (0, n) => .ar n | .inr (1, n) => .gr n | .inr (2, n) => .arInc n | .inr (3, n) => .decAr n
      | .inr (4, n) => .arIncGr n | .inr (5, n) => .arAddGr n | .inr (6, n) => .arSetGr n
      | .inr (7, n) => .arSetConst n | .inr (8, n) => .arAddConst n | .inr (_, n) => .arSubConst n)

/-- Address modifications. -/
def codecArOp : Codec ArOp :=
  ((Codec.fin 12).prod (codecIx.prod codecIx)).via
    (fun
      | .movAr d s => (0, d, s) | .movGr d s => (1, d, s) | .addGr d s => (2, d, s)
      | .addConst d s => (3, d, s) | .subConst d s => (4, d, s) | .setConst d => (5, d, 0)
      | .inc d => (6, d, 0) | .dec d => (7, d, 0) | .incGr d => (8, d, 0) | .decGr d => (9, d, 0)
      | .incConst d => (10, d, 0) | .decConst d => (11, d, 0))
    (fun
      | (0, d, s) => .movAr d s | (1, d, s) => .movGr d s | (2, d, s) => .addGr d s
      | (3, d, s) => .addConst d s | (4, d, s) => .subConst d s | (5, d, _) => .setConst d
      | (6, d, _) => .inc d | (7, d, _) => .dec d | (8, d, _) => .incGr d | (9, d, _) => .decGr d
      | (10, d, _) => .incConst d | (_, d, _) => .decConst d)

/-- Conditions. -/
def codecCond : Codec Cond :=
  .ofList [.always, .eq0, .ne0, .gt, .lt, .ge, .le, .uge, .ult, .carry, .notCarry, .vtrue, .vfalse, .vgt,
    .vlt, .vge, .vle]

/-- Control transfers. -/
def codecXfer : Codec Xfer :=
  ((Codec.fin 18).prod codecIx).via
    (fun
      | .goto .const => (0, 0) | .goto (.ar s) => (1, s) | .goto (.gr s) => (2, s) | .goto (.arGr s) => (3, s)
      | .goto (.arAdd s) => (4, s) | .goto (.arSub s) => (5, s)
      | .call .const => (6, 0) | .call (.ar s) => (7, s) | .call (.gr s) => (8, s) | .call (.arGr s) => (9, s)
      | .call (.arAdd s) => (10, s) | .call (.arSub s) => (11, s)
      | .skip .const => (12, 0) | .skip (.gr s) => (13, s) | .callrel .const => (14, 0)
      | .callrel (.gr s) => (15, s) | .ret => (16, 0) | .iret => (17, 0))
    (fun
      | (0, _) => .goto .const | (1, s) => .goto (.ar s) | (2, s) => .goto (.gr s) | (3, s) => .goto (.arGr s)
      | (4, s) => .goto (.arAdd s) | (5, s) => .goto (.arSub s)
      | (6, _) => .call .const | (7, s) => .call (.ar s) | (8, s) => .call (.gr s) | (9, s) => .call (.arGr s)
      | (10, s) => .call (.arAdd s) | (11, s) => .call (.arSub s)
      | (12, _) => .skip .const | (13, s) => .skip (.gr s) | (14, _) => .callrel .const
      | (15, s) => .callrel (.gr s) | (16, _) => .ret | (_, _) => .iret)

/-- Scalar left parts without operands: the five of them, by number. -/
def codecPlain : Codec (Fin 5) := .fin 5

/-- Scalar left parts. -/
def codecSLeft : Codec SLeft :=
  ((codecPlain.sum (codecReg.prod codecMode)).sum ((codecMode.prod codecReg).sum
    (((Codec.fin 3).prod codecReg).sum ((codecReg.prod codecReg).sum
      (codecArOp.sum (codecCond.prod (codecBool.prod codecXfer))))))).via
    (fun
      | .nul => .inl (.inl 0) | .nulC => .inl (.inl 1) | .popDrop => .inl (.inl 2)
      | .pswrSet => .inl (.inl 3) | .pswrClear => .inl (.inl 4)
      | .load d m => .inl (.inr (d, m))
      | .store m r => .inr (.inl (m, r))
      | .push r => .inr (.inr (.inl (0, r))) | .pop r => .inr (.inr (.inl (1, r)))
      | .setConst r => .inr (.inr (.inl (2, r)))
      | .copy d r => .inr (.inr (.inr (.inl (d, r))))
      | .arMod o => .inr (.inr (.inr (.inr (.inl o))))
      | .xfer c d x => .inr (.inr (.inr (.inr (.inr (c, d, x))))))
    (fun
      | .inl (.inl 0) => .nul | .inl (.inl 1) => .nulC | .inl (.inl 2) => .popDrop
      | .inl (.inl 3) => .pswrSet | .inl (.inl _) => .pswrClear
      | .inl (.inr (d, m)) => .load d m
      | .inr (.inl (m, r)) => .store m r
      | .inr (.inr (.inl (0, r))) => .push r | .inr (.inr (.inl (1, r))) => .pop r
      | .inr (.inr (.inl (_, r))) => .setConst r
      | .inr (.inr (.inr (.inl (d, r)))) => .copy d r
      | .inr (.inr (.inr (.inr (.inl o)))) => .arMod o
      | .inr (.inr (.inr (.inr (.inr (c, d, x))))) => .xfer c d x)

/-- ALU functions. Whether `not A xor B` and `A xor not B` are one machine code is not stated (R592): that they
have numbers, and so words, of their own is the model's (DESIGN CHOICE, entry 37). -/
def codecAluFn : Codec AluFn :=
  .ofList [.add, .inc, .sub, .dec, .addC, .addBC, .subC, .subBC, .neg, .mulFirst, .mulNext, .or, .and, .xor,
    .not, .notAorB, .AorNotB, .notAorNotB, .notAandB, .AandNotB, .notAandNotB, .notAxorB, .AxorNotB, .fls,
    .tru, .copy]

/-- ALU forms. -/
def codecAluForm : Codec AluForm :=
  (codecBool.sum (codecIx.sum codecIx)).via
    (fun | .flagsOnly => .inl false | .std d => .inr (.inl d) | .noflags d => .inr (.inr d))
    (fun | .inl _ => .flagsOnly | .inr (.inl d) => .std d | .inr (.inr d) => .noflags d)

/-- Shift kinds. -/
def codecShiftKind : Codec ShiftKind := .ofList [.shl, .shr, .sar, .rol, .ror, .rcl, .rcr]

/-- Scalar right parts. -/
def codecSRight : Codec SRight :=
  ((codecAluForm.prod (codecAluFn.prod (codecIx.prod codecIx))).sum
    (codecBool.sum (codecShiftKind.prod (codecIx.prod (codecIx.prod (Codec.fin 33)))))).via
    (fun
      | .alu f fn a b => .inl (f, fn, a, b)
      | .nul => .inr (.inl false)
      | .shift k d a n => .inr (.inr (k, d, a, n)))
    (fun
      | .inl (f, fn, a, b) => .alu f fn a b
      | .inr (.inl _) => .nul
      | .inr (.inr (k, d, a, n)) => .shift k d a n)

/-- Vector modes. -/
def codecVMode : Codec VMode :=
  ((Codec.fin 7).prod codecIx).via
    (fun
      | .ar n => (0, n) | .gr n => (1, n) | .arSetGr n => (2, n) | .arInc n => (3, n) | .decAr n => (4, n)
      | .arIncGr n => (5, n) | .arAddGr n => (6, n))
    (fun
      | (0, n) => .ar n | (1, n) => .gr n | (2, n) => .arSetGr n | (3, n) => .arInc n | (4, n) => .decAr n
      | (5, n) => .arIncGr n | (_, n) => .arAddGr n)

/-- Load buffers. -/
def codecLBuf : Codec LBuf := .ofList [.data, .ram, .wfifo]

/-- Vector left parts. -/
def codecVLeft : Codec VLeft :=
  ((codecBool.sum ((codecLBuf.prod codecVMode).sum (codecVMode.prod codecBool))).prod
    (codecBool.prod codecBool)).via
    (fun l => ((match l.mem with
      | .none => .inl false | .load b m => .inr (.inl (b, m)) | .store m a => .inr (.inr (m, a))), l.ftw, l.wtw))
    (fun
      | (.inl _, f, w) => ⟨.none, f, w⟩
      | (.inr (.inl (b, m)), f, w) => ⟨.load b m, f, w⟩
      | (.inr (.inr (m, a)), f, w) => ⟨.store m a, f, w⟩)

/-- Operand sources with their `activate`. -/
def codecVArg : Codec VArg :=
  .ofList [⟨false, .buf .data⟩, ⟨false, .buf .ram⟩, ⟨false, .buf .afifo⟩, ⟨false, .null⟩, ⟨false, .one⟩,
    ⟨false, .vr⟩, ⟨true, .buf .data⟩, ⟨true, .buf .ram⟩, ⟨true, .buf .afifo⟩, ⟨true, .null⟩, ⟨true, .one⟩,
    ⟨true, .vr⟩]

/-- Mask operands. -/
def codecMask : Codec (Option Buf) := .ofList [none, some .data, some .ram, some .afifo]

/-- Buffers. -/
def codecBuf : Codec Buf := .ofList [.data, .ram, .afifo]

/-- Logical operations. -/
def codecVLogOp : Codec VLogOp := .ofList [.or, .and, .xor]

/-- Vector right parts. -/
def codecVRight : Codec VRight :=
  ((((Codec.fin 4).sum (codecVLogOp.prod (codecBool.prod codecBool))).sum
      (codecBool.sum ((codecBuf.prod codecBool).sum (codecMask.prod codecBool)))).prod
    (codecVArg.prod codecVArg)).via
    (fun
      | .none => (.inl (.inl 0), ⟨false, .null⟩, ⟨false, .null⟩)
      | .fill false => (.inl (.inl 1), ⟨false, .null⟩, ⟨false, .null⟩)
      | .fill true => (.inl (.inl 2), ⟨false, .null⟩, ⟨false, .null⟩)
      | .storeRegs => (.inl (.inl 3), ⟨false, .null⟩, ⟨false, .null⟩)
      | .logic op nx ny x y => (.inl (.inr (op, nx, ny)), x, y)
      | .arith sub x y => (.inr (.inl sub), x, y)
      | .mask m s x y => (.inr (.inr (.inl (m, s))), x, y)
      | .vsum m s x y => (.inr (.inr (.inr (m, s))), x, y))
    (fun
      | (.inl (.inl 0), _, _) => .none
      | (.inl (.inl 1), _, _) => .fill false
      | (.inl (.inl 2), _, _) => .fill true
      | (.inl (.inl _), _, _) => .storeRegs
      | (.inl (.inr (op, nx, ny)), x, y) => .logic op nx ny x y
      | (.inr (.inl sub), x, y) => .arith sub x y
      | (.inr (.inr (.inl (m, s))), x, y) => .mask m s x y
      | (.inr (.inr (.inr (m, s))), x, y) => .vsum m s x y)

/-- Bare vector forms; `vnul` has number 0. -/
def codecVBare : Codec VBare := .ofList [.vnul, .ftw, .wtw, .ftwWtw]

/-- Low words of instructions; the bare `vnul` with P = 0 has number 0. -/
def codecLow : Codec Low :=
  (((codecBool).prod codecVBare).sum ((codecBool.prod (codecSLeft.prod codecSRight)).sum
    (codecBool.prod ((Codec.fin 32).prod (codecVLeft.prod codecVRight))))).via
    (fun
      | .bare p b => .inl (p, b)
      | .scalar p l r => .inr (.inl (p, l, r))
      | .vector p n l r => .inr (.inr (p, n, l, r)))
    (fun
      | .inl (p, b) => .bare p b
      | .inr (.inl (p, l, r)) => .scalar p l r
      | .inr (.inr (p, n, l, r)) => .vector p n l r)

end Sys2Proof
end

