-- ==== Sys2Proof/WellFormed.lean ====
section
/-! DEFINITION. Well-formedness of instructions: those the source's tables have (spec/30_encoding.md R325,
spec/93_implementation_defined.md). The checks themselves are in Machine/Forms.lean. -/

namespace Sys2Proof

/-- An instruction of R264 that no check refuses. -/
def Low.wellFormed (l : Low) : Bool := l.defect.isNone

/-- An instruction that no check refuses. -/
def Instr.wellFormed (i : Instr) : Bool := i.code.low.wellFormed

end Sys2Proof
end

