-- ==== Sys2Proof/Decode.lean ====
section
/-! DEFINITION. Decoding instruction words, and encoding. The source gives one binary encoding, 0x00000000 for
`vnul` (spec/30_encoding.md R262); the rest of Decode is the open parameter of R263. It is modelled by
constants without a body, so that nothing can be proved that depends on the unknown encodings (entries 1, 2). -/

namespace Sys2Proof

/-- Why no instruction is read from a word. -/
inductive DecodeError
  /-- The word stands for nothing (R325). -/
  | noInstruction
  /-- The word stands for a form outside the tables (R325, R716). -/
  | outsideTables (d : Defect)
  deriving DecidableEq, Repr

/-- The low word that is `vnul` with P = 0 (R262 f). -/
def lowVnul : Low := .bare false .vnul

/-- The instruction of the tables that has number `n`, if there is one. -/
def lowOfNumber (n : Nat) : Option Low :=
  (codecLow.dec n).filter fun l => codecLow.enc l == n && l.wellFormed

/-- The low word a non-zero word stands for: the instruction of the tables `codePerm` gives the word to. Every
other word is `spareWord`'s choice: a further spelling of an instruction, a form outside the tables, or nothing.
So how many words an instruction has stays open; that it has one at all is the fourth constraint of R263. That two
values of R264 of the same effect have no word in common among `codePerm`'s is the model's (DESIGN CHOICE, entry 37). -/
def lowOfNonzero (w : { w : Word // w ≠ 0 }) : Option Low :=
  (lowOfNumber (Config.codePerm.symm w).val.toNat).or (Config.spareWord w.val)

/-- What a low word says (R263). -/
def lowOfWord (w : Word) : Option Low :=
  if h : w = 0 then some lowVnul else lowOfNonzero ⟨w, h⟩

/-- The length in words of the instruction a low word stands for, if it stands for one of the tables (R266; the
length depends on the low word alone, R263). -/
def lengthOfWord (w : Word) : Option Nat :=
  ((lowOfWord w).filter Low.wellFormed).map fun l => if l.long then 2 else 1

/-- The constant of an instruction: the word after its low word, where it is long (R263, R267). -/
def constantOf (l : Low) (w1 : Word) : Word := if l.long then w1 else 0

/-- Decoding (R263): `w0` is the word at the instruction's address, `w1` the word after it. -/
def decode (w0 w1 : Word) : Except DecodeError Instr :=
  match lowOfWord w0 with
  | none => .error .noInstruction
  | some l =>
    match l.defect with
    | some d => .error (.outsideTables d)
    | none => .ok (.ofCode ⟨l, constantOf l w1⟩)

/-- The number of a low word as a non-zero word. -/
def lowIndex (l : Low) : Word := BitVec.ofNat 32 (codecLow.enc l)

/-- The low word of an instruction: 0 for `vnul` with P = 0, else the word `codePerm` gives it. -/
def wordOfLow (l : Low) : Word :=
  if h : lowIndex l ≠ 0 then (Config.codePerm ⟨lowIndex l, h⟩).val else 0

/-- Encoding: the words of an instruction, the low word first, then its constant if it is long (R261, R267). -/
def encode (i : Instr) : List Word :=
  if i.code.low.long then [wordOfLow i.code.low, i.code.k] else [wordOfLow i.code.low]

/-- The instruction the decoder reads from bits `w`: bit 0 is the least significant bit of the first word, the
second word is bits 63:32; bits from `nbits` on are 0. -/
def decodeTableWord (nbits w : Nat) : Option Instr :=
  match decode (BitVec.ofNat 32 (w % 2 ^ nbits)) (BitVec.ofNat 32 (w % 2 ^ nbits / 2 ^ 32)) with
  | .ok i => some i
  | .error _ => none

end Sys2Proof
end

