-- ==== Sys2Proof/Machine/State.lean ====
section
/-! DEFINITION. The state of the machine as plain data, the names of its refusals, and the state right after
reset (spec/10_state.md, R180). INVENTORY.md lists every field with its rule and its reset value. -/

namespace Sys2Proof.Machine

open Sys2Proof

/-- The faults of the machine: there are none. No access, encoding, alignment or privilege condition
raises a synchronous fault (spec/60_exceptions.md R800, spec/20_memory.md R231); what the manual reports, it
reports as an interrupt request, which is a next state (entry 33). -/
inductive Fault
  deriving DecidableEq, Repr

/-- The refusals: the spec gives no next state. Every one of them is safe: the model predicts nothing. -/
inductive Refusal
  /-- An instruction without a meaning in the model. Raised by no arm of this model. Safe. -/
  | notModelled (mnemonic : String)
  /-- Raised by the step when the word at ipc decodes to nothing (R263, R325). Safe. -/
  | undecodable
  /-- Raised by every meaning when the instruction is outside the tables (R325, R716). Safe. -/
  | illFormed (d : Defect)
  /-- Raised by every long instruction at an odd address (R267). Safe. -/
  | longAtOddAddress
  /-- Raised by a 64-bit scalar, stack or DMA access at an odd address (R206). Safe. -/
  | oddLongAddress
  /-- Raised by a vector instruction whose mode uses an odd register (R633). Safe. -/
  | oddVectorAddress
  /-- Raised by a control transfer to be taken among delayed instructions (R477). Safe. -/
  | transferInDelayWindow
  /-- Raised by `vsum` when the Active Matrix has another number of rows than sb2 says (R760). Safe. -/
  | rowCountMismatch
  deriving DecidableEq, Repr

/-- The kinds of a delayed transfer's action (R472). -/
inductive XferKind
  | jump | call | ret | iret
  deriving DecidableEq, Repr

/-- The record a delayed transfer leaves (R178, R475): `n` delayed instructions are still to run. -/
structure Pending where
  taken : Bool
  kind : XferKind
  target : Word
  n : Nat
  deriving DecidableEq, Repr

/-- A direction of a communication port (R102). -/
inductive Dir
  | output | input
  deriving DecidableEq, Repr

/-- A communication port and its DMA coprocessor (R100 to R109). -/
structure Port where
  ica : Word
  icc : Word
  oca : Word
  occ : Word
  /-- dir_p, shown by intr.CPpS. -/
  dir : Dir
  /-- The direction of a transfer in progress (R108, entry 19). -/
  moving : Option Dir
  /-- Long words the peer has offered and the port has not taken. -/
  inQ : List Long
  /-- Long words sent, oldest first. -/
  outQ : List Long
  deriving DecidableEq, Repr

/-- A timer: its counter, the value of its last write, and whether a single count has ended (R116, R171). -/
structure Timer where
  count : Word
  reload : Word
  stopped : Bool
  deriving DecidableEq, Repr

/-- One of two like units: port 0 or port 1. -/
inductive Unit2
  | u0 | u1
  deriving DecidableEq, Repr

/-- An event of the schedule (entry 16). -/
inductive Input
  /-- The processor makes one step. -/
  | core
  /-- One TimerClock event: both timers tick (R116). -/
  | timerClock
  /-- The peer of port p offers a long word (R104). -/
  | portOffer (p : Unit2) (w : Long)
  /-- The input channel of port p makes one step (R104, R105). -/
  | dmaIn (p : Unit2)
  /-- The peer accepts a word and the output channel of port p makes one step (R106). -/
  | dmaOut (p : Unit2)
  /-- The external interrupt (R804). -/
  | extInt
  /-- System RESET (R870). -/
  | reset
  deriving DecidableEq, Repr

/-- The state of the machine. -/
structure State where
  ars : Vector Word 8
  grs : Vector Word 8
  ipc : Word
  pswr : Word
  ireq : BitVec 9
  gbs : Bool
  lbs : Bool
  gmicr : Word
  lmicr : Word
  port0 : Port
  port1 : Port
  timer0 : Timer
  timer1 : Timer
  f1cr : Long
  f2cr : Long
  nb1 : Long
  nb2 : Long
  sb1 : Word
  sb2 : Word
  vr : Long
  afifo : List Long
  ram : List Long
  wfifo : List Long
  ws : List Long
  wa : List Long
  pending : Option Pending
  stuck : Bool
  mem : List Host.Cell
  params : Config.Params
  inputs : List Input
  freeCtr : Nat
  dmaSeen : Bool
  deriving DecidableEq, Repr

/-- The outcome of a step of this machine. -/
abbrev Result := Host.Outcome State Fault Refusal

/-- A port right after reset: idle, in the given direction (R102, R111). -/
def Port.atReset (d : Dir) : Port where
  ica := 0
  icc := 0
  oca := 0
  occ := 0
  dir := d
  moving := none
  inQ := []
  outQ := []

/-- A timer right after reset. -/
def Timer.atReset : Timer := { count := 0, reload := 0, stopped := false }

/-- The machine right after reset (R180). The values the spec states: pswr, ireq, the bus bits, the port
directions, the three empty buffers, no pending transfer, not stuck. The zeros of the other registers and of
the matrices, and ipc, are the model's (DESIGN CHOICE, unsafe: entries 4, 5, 6). -/
def State.reset : State where
  ars := Vector.replicate 8 0
  grs := Vector.replicate 8 0
  ipc := 0
  pswr := 0
  ireq := 0
  gbs := false
  lbs := true
  gmicr := 0
  lmicr := 0
  port0 := Port.atReset .output
  port1 := Port.atReset .input
  timer0 := Timer.atReset
  timer1 := Timer.atReset
  f1cr := 0
  f2cr := 0
  nb1 := 0
  nb2 := 0
  sb1 := 0
  sb2 := 0
  vr := 0
  afifo := []
  ram := []
  wfifo := []
  ws := [0]
  wa := [0]
  pending := none
  stuck := false
  mem := []
  params := Config.Params.default
  inputs := []
  freeCtr := 0
  dmaSeen := false

end Sys2Proof.Machine
end

