-- ==== Sys2Proof/Machine/Ops.lean ====
section
/-! DEFINITION. The named operations: memory, registers, the intr view, interrupt requests, taking an
interrupt and returning from one, control transfer actions, ports and timers, the end of an instruction. -/

namespace Sys2Proof.Machine

open Sys2Proof

/-! ### Memory as bytes (entry 3) -/

/-- What a byte that nothing has written reads as. DESIGN CHOICE, unsafe: entry 3. -/
def unlistedByte : BitVec 8 := 0

/-- The byte at a byte address. -/
def Memory.byteAt : List Host.Cell → Nat → BitVec 8
  | [], _ => unlistedByte
  | (a, b) :: t, x => if a = x then b else Memory.byteAt t x

/-- A cell put in its place in a list of rising addresses. -/
def Memory.insertCell (x : Nat) (v : BitVec 8) : List Host.Cell → List Host.Cell
  | [] => [(x, v)]
  | (a, b) :: t => if x < a then (x, v) :: (a, b) :: t else (a, b) :: Memory.insertCell x v t

/-- One byte written; writing what an unlisted byte reads as removes the entry. -/
def Memory.setByte (m : List Host.Cell) (x : Nat) (v : BitVec 8) : List Host.Cell :=
  if v = unlistedByte then m.filter (fun c => c.1 ≠ x)
  else Memory.insertCell x v (m.filter (fun c => c.1 ≠ x))

/-- The canonical form: addresses of the address space, strictly rising, no entry an unlisted byte reads as. -/
def Memory.wf (m : List Host.Cell) : Bool :=
  decide (m.Pairwise (fun c d => c.1 < d.1)) && m.all (fun c => c.2 != unlistedByte && decide (c.1 < 2 ^ 34))

/-- The byte address of byte `j` of the word at a word address (R200; D28, entry 3). -/
def byteAddr (a : Word) (j : Nat) : Nat := 4 * a.toNat + j

/-- The 32-bit word at a word address (R205). -/
def Memory.word (m : List Host.Cell) (a : Word) : Word :=
  Memory.byteAt m (byteAddr a 3) ++ Memory.byteAt m (byteAddr a 2) ++
    Memory.byteAt m (byteAddr a 1) ++ Memory.byteAt m (byteAddr a 0)

/-- A 32-bit word written at a word address (R205). -/
def Memory.setWord (m : List Host.Cell) (a : Word) (v : Word) : List Host.Cell :=
  Memory.setByte (Memory.setByte (Memory.setByte (Memory.setByte m
    (byteAddr a 0) (v.extractLsb' 0 8)) (byteAddr a 1) (v.extractLsb' 8 8))
    (byteAddr a 2) (v.extractLsb' 16 8)) (byteAddr a 3) (v.extractLsb' 24 8)

/-! ### Memory of the state (R205, R230) -/

/-- Whether a word address is backed by memory (MemMap, R230). -/
def State.backed (s : State) (a : Word) : Bool :=
  !(s.params.unbacked.any fun r => r.1.ule a && a.ule r.2)

/-- `MemRead(a, 1)` as access number `k` of the step; outside MemMap a free value (R230, entry 12). -/
def State.read32 (s : State) (k : Nat) (a : Word) : Word :=
  if s.backed a then Memory.word s.mem a else Config.freeRead s.freeCtr k a

/-- `MemRead(a, 2)`: the low half at `a`, the high half at `a + 1` (R204, R205). -/
def State.read64 (s : State) (k : Nat) (a : Word) : Long :=
  Long.ofHalves (s.read32 k (a + 1)) (s.read32 k a)

/-- `MemWrite(a, 1, v)`; outside MemMap the write is lost (R230). -/
def State.write32 (s : State) (a : Word) (v : Word) : State :=
  if s.backed a then { s with mem := Memory.setWord s.mem a v } else s

/-- `MemWrite(a, 2, v)` (R205). -/
def State.write64 (s : State) (a : Word) (v : Long) : State :=
  (s.write32 a v.lo).write32 (a + 1) v.hi

/-- A scalar read of one or two words; two at an odd address are refused (R206). -/
def State.load (s : State) (wide : Bool) (a : Word) : Except Refusal Long :=
  if wide then (if a.odd then .error .oddLongAddress else .ok (s.read64 0 a))
  else .ok ((s.read32 0 a).setWidth 64)

/-- A scalar write of one or two words; two at an odd address are refused (R206). -/
def State.store (s : State) (wide : Bool) (a : Word) (v : Long) : Except Refusal State :=
  if wide then (if a.odd then .error .oddLongAddress else .ok (s.write64 a v))
  else .ok (s.write32 a v.lo)

/-! ### The primary register file (R31) -/

/-- ar[i]. -/
def State.ar (s : State) (i : Ix) : Word := s.ars[i]

/-- gr[i]. -/
def State.gr (s : State) (i : Ix) : Word := s.grs[i]

/-- ar[i] <- v. -/
def State.setAr (s : State) (i : Ix) (v : Word) : State := { s with ars := s.ars.set i v }

/-- gr[i] <- v. -/
def State.setGr (s : State) (i : Ix) (v : Word) : State := { s with grs := s.grs.set i v }

/-- ar[N] <- v for the register update an addressing mode may have. -/
def State.applyUpd (s : State) : Option (Ix × Word) → State
  | none => s
  | some (i, v) => s.setAr i v

/-! ### pswr (R50 to R62) -/

/-- Bit `n` of pswr. -/
def State.psw (s : State) (n : Nat) : Bool := s.pswr.getLsbD n

/-- Bits 25:20, CP1 and CP0 control, which only `pswr set` and `pswr clear` change (R56). -/
def cpMask : Word := 0x03F00000

/-- What a copy, load, pop or return leaves in pswr (R440, R512). -/
def pswrWritten (old v : Word) : Word := (v &&& ~~~cpMask) ||| (old &&& cpMask)

/-- The flags N Z V C, bits 3:0 (R60). -/
def State.flags (s : State) : BitVec 4 := s.pswr.extractLsb' 0 4

/-- pswr[3:0] <- f (R545). -/
def State.setFlags (s : State) (f : BitVec 4) : State :=
  { s with pswr := s.pswr.extractLsb' 4 28 ++ f }

/-! ### Interrupt requests (R78, R801 to R812) -/

/-- `raise`: the request bit `k` is set, masked or not (R811). -/
def State.raise (s : State) (k : Fin 9) : State := { s with ireq := s.ireq ||| BitVec.twoPow 9 k }

/-- Whether request `k` is pending and its mask, pswr bit `k + 5`, is clear (R810, R812). -/
def State.enabledReq (s : State) (k : Fin 9) : Bool := s.ireq.getLsbD k && !s.psw (k + 5)

/-- The request that is taken next, if any is enabled (R812, R826). -/
def State.nextReq (s : State) : Option (Fin 9) := s.params.intPriority.find? s.enabledReq

/-! ### intr (R80) -/

/-- The count field of a buffer: its length less one; free while it is empty (R75, R76). -/
def countField (q : List Long) (free : BitVec 5) : BitVec 5 :=
  if q.isEmpty then free else BitVec.ofNat 5 (q.length - 1)

/-- DMAR: the defaults before any DMA activity, and from then on a free value (R73, entry 11). -/
def State.dmar (s : State) : BitVec 4 := if s.dmaSeen then Config.freeDmar s.freeCtr else 0b0011

/-- The value a read of intr returns (R80). -/
def State.intr (s : State) : Word :=
  BitVec.ofBool s.gbs ++ BitVec.ofBool s.lbs ++ s.dmar ++
    BitVec.ofBool (s.port1.dir == .input) ++ BitVec.ofBool (s.port0.dir == .input) ++
    BitVec.ofBool (!s.afifo.isEmpty) ++ countField s.afifo (Config.freeAfifoCount s.freeCtr) ++
    countField s.ram (Config.freeRamCount s.freeCtr) ++
    BitVec.ofBool s.afifo.isEmpty ++ BitVec.ofBool (s.afifo.length == 32) ++
    BitVec.ofBool s.wfifo.isEmpty ++ BitVec.ofBool (s.wfifo.length == 32) ++ s.ireq

/-! ### Ports and timers by number -/

/-- Port p. -/
def State.port (s : State) : Unit2 → Port
  | .u0 => s.port0
  | .u1 => s.port1

/-- Port p replaced. -/
def State.setPort (s : State) (p : Unit2) (q : Port) : State :=
  match p with
  | .u0 => { s with port0 := q }
  | .u1 => { s with port1 := q }

/-- Timer n. -/
def State.timer (s : State) : Unit2 → Timer
  | .u0 => s.timer0
  | .u1 => s.timer1

/-- Timer n replaced. -/
def State.setTimer (s : State) (n : Unit2) (t : Timer) : State :=
  match n with
  | .u0 => { s with timer0 := t }
  | .u1 => { s with timer1 := t }

/-- A write to tn: the counter and its reload value, and a stopped timer runs again (R116, R403). -/
def Timer.written (v : Word) : Timer := { count := v, reload := v, stopped := false }

/-! ### Register access (R402, R403) -/

/-- `Rd` of a special register. pc has no value here: a form that reads it is refused before (R402). -/
def State.readSpec (s : State) : SpecReg → Word
  | .icc0 => s.port0.icc
  | .ica0 => s.port0.ica
  | .icc1 => s.port1.icc
  | .ica1 => s.port1.ica
  | .occ0 => s.port0.occ
  | .oca0 => s.port0.oca
  | .occ1 => s.port1.occ
  | .oca1 => s.port1.oca
  | .t0 => s.timer0.count
  | .t1 => s.timer1.count
  | .pswr => s.pswr
  | .lmicr => s.lmicr
  | .gmicr => s.gmicr
  | .intr => s.intr
  | .pc => 0

/-- A write to the input counter of a port. A write of 0 ends an input transfer that had started: no word of it is
left, and the peer chooses the next direction (R108; DEDUCED, entry 19). -/
def Port.setIcc (q : Port) (v : Word) : Port :=
  { q with icc := v, moving := if v = 0 ∧ q.moving = some .input then none else q.moving }

/-- A write to the output counter of a port, likewise (R108; DEDUCED, entry 19). -/
def Port.setOcc (q : Port) (v : Word) : Port :=
  { q with occ := v, moving := if v = 0 ∧ q.moving = some .output then none else q.moving }

/-- A write of `v` to a counter: a channel set up with a counter that is not 0 is DMA activity (R73, R104, R106;
entry 11). -/
def State.noteSetUp (s : State) (v : Word) : State := { s with dmaSeen := s.dmaSeen || v != 0 }

/-- `Wr` of a special register. pc and intr take nothing: a form that writes them is refused before (R403). -/
def State.writeSpec (s : State) (r : SpecReg) (v : Word) : State :=
  match r with
  | .icc0 => { s with port0 := s.port0.setIcc v }.noteSetUp v
  | .ica0 => { s with port0 := { s.port0 with ica := v } }
  | .icc1 => { s with port1 := s.port1.setIcc v }.noteSetUp v
  | .ica1 => { s with port1 := { s.port1 with ica := v } }
  | .occ0 => { s with port0 := s.port0.setOcc v }.noteSetUp v
  | .oca0 => { s with port0 := { s.port0 with oca := v } }
  | .occ1 => { s with port1 := s.port1.setOcc v }.noteSetUp v
  | .oca1 => { s with port1 := { s.port1 with oca := v } }
  | .t0 => { s with timer0 := Timer.written v }
  | .t1 => { s with timer1 := Timer.written v }
  | .pswr => { s with pswr := pswrWritten s.pswr v }
  | .lmicr => { s with lmicr := v }
  | .gmicr => { s with gmicr := v }
  | .intr | .pc => s

/-- The two registers of a special pair, the high half first (R39, D6). -/
def pairRegs : SpecPair → SpecReg × SpecReg
  | .icc0ica0 => (.icc0, .ica0)
  | .icc1ica1 => (.icc1, .ica1)
  | .occ0oca0 => (.occ0, .oca0)
  | .occ1oca1 => (.occ1, .oca1)
  | .t0t1 => (.t0, .t1)
  | .pswrpc => (.pswr, .pc)

/-- The bits of odd number of a 64-bit word: the image of sb that reaches sb1 (R134). -/
def oddBits (v : Long) : Word := BitVec.ofFnLE fun j : Fin 32 => v.getLsbD (2 * j + 1)

/-- sb1 after a write of `w` to sbl: its low 16 bits (R134). -/
def sbLowWritten (sb1 w : Word) : Word :=
  BitVec.ofFnLE fun j : Fin 32 => if j.val < 16 then w.getLsbD (2 * j + 1) else sb1.getLsbD j

/-- sb1 after a write of `w` to sbh: its high 16 bits (R134). -/
def sbHighWritten (sb1 w : Word) : Word :=
  BitVec.ofFnLE fun j : Fin 32 => if j.val < 16 then sb1.getLsbD j else w.getLsbD (2 * (j - 16) + 1)

/-- The low half of a 64-bit register replaced (R126). -/
def setLow (v : Long) (w : Word) : Long := Long.ofHalves v.hi w

/-- The high half of a 64-bit register replaced (R126). -/
def setHigh (v : Long) (w : Word) : Long := Long.ofHalves w v.lo

/-- `Wr` of a half of a vector control register (R403, R134). -/
def State.writeHalf (s : State) (h : VHalf) (w : Word) : State :=
  match h with
  | .nb1l => { s with nb1 := setLow s.nb1 w }
  | .nb1h => { s with nb1 := setHigh s.nb1 w }
  | .sbl => { s with sb1 := sbLowWritten s.sb1 w }
  | .sbh => { s with sb1 := sbHighWritten s.sb1 w }
  | .f1crl => { s with f1cr := setLow s.f1cr w }
  | .f1crh => { s with f1cr := setHigh s.f1cr w }
  | .f2crl => { s with f2cr := setLow s.f2cr w }
  | .f2crh => { s with f2cr := setHigh s.f2cr w }
  | .vrl => { s with vr := setLow s.vr w }
  | .vrh => { s with vr := setHigh s.vr w }

/-- `Wr` of a 64-bit vector control register; a write to sb reaches sb1 only (R403, R134). -/
def State.writeVReg (s : State) (r : VReg) (v : Long) : State :=
  match r with
  | .nb1 => { s with nb1 := v }
  | .sb => { s with sb1 := oddBits v }
  | .f1cr => { s with f1cr := v }
  | .f2cr => { s with f2cr := v }
  | .vr => { s with vr := v }

/-- `Rd(r)` as 64 bits; a 32-bit register is in the low half (R402). Vector control registers are write only:
a form that reads one is refused before. -/
def State.readReg (s : State) : Reg → Long
  | .ar n => (s.ar n).setWidth 64
  | .gr n => (s.gr n).setWidth 64
  | .pair n => Long.ofHalves (s.ar n) (s.gr n)
  | .special (.one r) => (s.readSpec r).setWidth 64
  | .special (.two p) => Long.ofHalves (s.readSpec (pairRegs p).1) (s.readSpec (pairRegs p).2)
  | .vctl _ => 0

/-- `Wr(r, v)`; a 32-bit register takes the low half of `v` (R403). -/
def State.writeReg (s : State) (r : Reg) (v : Long) : State :=
  match r with
  | .ar n => s.setAr n v.lo
  | .gr n => s.setGr n v.lo
  | .pair n => (s.setAr n v.hi).setGr n v.lo
  | .special (.one r) => s.writeSpec r v.lo
  | .special (.two p) => (s.writeSpec (pairRegs p).1 v.hi).writeSpec (pairRegs p).2 v.lo
  | .vctl (.half h) => s.writeHalf h v.lo
  | .vctl (.full r) => s.writeVReg r v

/-- A 32-bit source widened to a 64-bit destination: the same word in both halves (R404). -/
def widen (dst src : Reg) (v : Long) : Long :=
  if dst.wide && !src.wide then Long.ofHalves v.lo v.lo else v

/-! ### The system stack: frames (R380, R490, R830) -/

/-- sp. -/
def State.sp (s : State) : Word := s.ar 7

/-- A frame `{hi, lo}` pushed: Mem[sp] = lo, Mem[sp+1] = hi, sp + 2; odd sp is refused (R490, R206). -/
def State.pushFrame (s : State) (hi lo : Word) : Except Refusal State :=
  if s.sp.odd then .error .oddLongAddress
  else .ok ((s.write64 s.sp (Long.ofHalves hi lo)).setAr 7 (s.sp + 2))

/-- A frame popped: its long word, and the state with sp - 2; odd sp is refused (R510). The frame is read as access
number 65 of the step, a number no other read of the step has: two reads of one address outside MemMap need not
agree (R230). -/
def State.popFrame (s : State) : Except Refusal (Long × State) :=
  if s.sp.odd then .error .oddLongAddress
  else .ok (s.read64 65 (s.sp - 2), s.setAr 7 (s.sp - 2))

/-! ### Taking an interrupt, and returning from one -/

/-- Interrupt entry for request `k` (R830): {pswr, ipc} is pushed, the request is cleared, the masks of
EntryMask are set, and ipc goes to IntVector(k). -/
def State.takeInterrupt (s : State) (k : Fin 9) : Except Refusal State :=
  match s.pushFrame s.pswr s.ipc with
  | .error r => .error r
  | .ok t => .ok { t with
      ireq := t.ireq &&& ~~~(BitVec.twoPow 9 k)
      pswr := t.pswr ||| t.params.entryMask
      ipc := Config.intVector k }

/-- `ireturn`: the frame is popped, ipc and pswr are restored, pswr bits 25:20 keep their value (R512). -/
def State.returnFromInterrupt (s : State) : Except Refusal State :=
  match s.popFrame with
  | .error r => .error r
  | .ok (v, t) => .ok { t with ipc := v.lo, pswr := pswrWritten t.pswr v.hi }

/-- `return`: the frame is popped, only ipc is restored (R510). -/
def State.returnFromCall (s : State) : Except Refusal State :=
  match s.popFrame with
  | .error r => .error r
  | .ok (v, t) => .ok { t with ipc := v.lo }

/-- A call: {pswr, ret} is pushed and ipc goes to the target (R490). -/
def State.callTo (s : State) (target ret : Word) : Except Refusal State :=
  match s.pushFrame s.pswr ret with
  | .error r => .error r
  | .ok t => .ok { t with ipc := target }

/-- `Action(kind, T, ret)` of R472. -/
def State.action (s : State) (kind : XferKind) (target ret : Word) : Except Refusal State :=
  match kind with
  | .jump => .ok { s with ipc := target }
  | .call => s.callTo target ret
  | .ret => s.returnFromCall
  | .iret => s.returnFromInterrupt

/-! ### The end of a step (R58, R475) -/

/-- The FIFO clear bits: while one is 1 its buffer is empty at the end of every step (R58). -/
def State.clearFifos (s : State) : State :=
  { s with wfifo := if s.psw 15 then [] else s.wfifo, afifo := if s.psw 14 then [] else s.afifo }

/-- The next step's free values are others (entry 11). -/
def State.tickFree (s : State) : State := { s with freeCtr := s.freeCtr + 1 }

/-- The delayed transfer that was pending before the instruction counts down, and is performed when its last
delayed instruction has run (R475). -/
def State.settle (s : State) : Option Pending → Except Refusal State
  | none => .ok s
  | some q =>
    if 1 < q.n then .ok { s with pending := some { q with n := q.n - 1 } }
    else if q.taken then { s with pending := none }.action q.kind q.target s.ipc
    else .ok { s with pending := none }

/-- The outcome of a state or a refusal. -/
def toResult : Except Refusal State → Result
  | .error r => .refused r
  | .ok s => .next s

/-- The end of an instruction that began with `before` pending: the clear bits as the instruction leaves pswr
(step 9 of R631), then the action of a delayed transfer that ends with it (R475), then the clear bits of the pswr
that a delayed `ireturn` restored (R58). -/
def State.finish (s : State) (before : Option Pending) : Result :=
  match s.clearFifos.settle before with
  | .error r => .refused r
  | .ok t => .next t.clearFifos.tickFree

/-! ### Timers (R116) -/

/-- The T0C / T1C mode bits (TM, TE) (R57). -/
def State.timerMode (s : State) : Unit2 → Bool × Bool
  | .u0 => (s.psw 19, s.psw 18)
  | .u1 => (s.psw 17, s.psw 16)

/-- The request a timer raises (R801, R809). -/
def timerReq : Unit2 → Fin 9
  | .u0 => 8
  | .u1 => 0

/-- One tick of timer n (R116). -/
def State.tickTimer (s : State) (n : Unit2) : State :=
  let t := s.timer n
  if s.timerMode n = (false, false) ∨ t.stopped then s
  else if t.count + 1 = 0 then
    if (s.timerMode n).1 then (s.setTimer n { t with count := t.reload }).raise (timerReq n)
    else (s.setTimer n { t with count := 0, stopped := true }).raise (timerReq n)
  else s.setTimer n { t with count := t.count + 1 }

/-! ### Ports (R104 to R109) -/

/-- The control bits of a port: external initialization, input not allowed, output not allowed (R54, R55). -/
def State.portCtl (s : State) : Unit2 → Bool × Bool × Bool
  | .u0 => (s.psw 22, s.psw 21, s.psw 20)
  | .u1 => (s.psw 25, s.psw 24, s.psw 23)

/-- The end-of-input request of a port (R805, R806). -/
def inReq : Unit2 → Fin 9
  | .u0 => 3
  | .u1 => 4

/-- The end-of-output request of a port (R807, R808). -/
def outReq : Unit2 → Fin 9
  | .u0 => 1
  | .u1 => 2

/-- Whether a started transfer in the other direction is still to be finished (R108, entry 19). -/
def Port.blocked (q : Port) : Dir → Bool
  | .input => q.moving == some .output && q.occ != 0
  | .output => q.moving == some .input && q.icc != 0

/-- One step of the input channel of port p (R104, R105). A step that nothing enables changes nothing. -/
def State.dmaInput (s : State) (p : Unit2) : Except Refusal State :=
  let q := s.port p
  let (external, off, _) := s.portCtl p
  match q.inQ with
  | [] => .ok s
  | w :: rest =>
    if off || q.blocked .input then .ok s
    else if q.icc ≠ 0 then
      if q.ica.odd then .error .oddLongAddress
      else
        let t := (s.write64 q.ica w).setPort p { q with
          ica := q.ica + 2, icc := q.icc + 1, inQ := rest, dir := .input
          moving := if q.icc + 1 = 0 then none else some .input }
        .ok { (if q.icc + 1 = 0 then t.raise (inReq p) else t) with dmaSeen := true }
    else if external then
      .ok { s.setPort p { q with
          ica := w.lo, icc := w.hi, inQ := rest, dir := .input
          moving := if w.hi = 0 then none else some .input } with dmaSeen := true }
    else .ok s

/-- One step of the output channel of port p (R106). A step that nothing enables changes nothing. -/
def State.dmaOutput (s : State) (p : Unit2) : Except Refusal State :=
  let q := s.port p
  let (_, _, off) := s.portCtl p
  if q.occ = 0 || off || q.blocked .output then .ok s
  else if q.oca.odd then .error .oddLongAddress
  else
    let t := s.setPort p { q with
      oca := q.oca + 2, occ := q.occ + 1, outQ := q.outQ ++ [s.read64 0 q.oca], dir := .output
      moving := if q.occ + 1 = 0 then none else some .output }
    .ok { (if q.occ + 1 = 0 then t.raise (outReq p) else t) with dmaSeen := true }

/-- The peer of port p offers a long word. -/
def State.offer (s : State) (p : Unit2) (w : Long) : State :=
  s.setPort p { s.port p with inQ := (s.port p).inQ ++ [w] }

/-! ### Reset (R870, R875) -/

/-- A RESET event: every field as after reset, but memory, the parameters and what belongs to the outside (the
schedule, the words on the links) stay (R875, entry 25). -/
def State.resetEvent (s : State) : State :=
  { State.reset with
    mem := s.mem
    params := s.params
    inputs := s.inputs
    freeCtr := s.freeCtr + 1
    port0 := { Port.atReset .output with inQ := s.port0.inQ, outQ := s.port0.outQ }
    port1 := { Port.atReset .input with inQ := s.port1.inQ, outQ := s.port1.outQ } }

end Sys2Proof.Machine
end

