-- ==== Sys2Proof/Machine/Flags.lean ====
section
/-! DEFINITION. The scalar right part: results and flags of every operation (spec/43_scalar_alu.md). -/

namespace Sys2Proof

open Sys2Proof.Machine

/-- The flags as pswr[3:0]. -/
def Machine.flagBits (n z v c : Bool) : BitVec 4 :=
  BitVec.ofBool n ++ BitVec.ofBool z ++ BitVec.ofBool v ++ BitVec.ofBool c

/-- A result with its flags N Z V C. -/
structure Machine.AluOut where
  r : Word
  flags : BitVec 4
  deriving DecidableEq, Repr

/-- An output: N and Z follow from the result in every class (R542). -/
def Machine.aluOut (r : Word) (v c : Bool) : AluOut := ⟨r, flagBits r.msb (r == 0) v c⟩

/-- `A + X + cin` as an exact sum of 33 bits (R542). -/
def Machine.exactSum (a x : Word) (cin : Bool) : BitVec 33 :=
  a.setWidth 33 + x.setWidth 33 + (BitVec.ofBool cin).setWidth 33

/-- The adding class (R542). -/
def Machine.addClass (a x : Word) (cin : Bool) : AluOut :=
  let s := exactSum a x cin
  let r := s.setWidth 32
  aluOut r (a.msb == x.msb && r.msb != a.msb) (s.getLsbD 32)

/-- The subtracting class: `A + not X + cin`; C by CarrySense (R542, R543). -/
def Machine.subClass (sense : Config.CarrySense) (a x : Word) (cin : Bool) : AluOut :=
  let s := exactSum a (~~~x) cin
  let r := s.setWidth 32
  aluOut r (a.msb != x.msb && r.msb != a.msb)
    (match sense with | .borrow => !s.getLsbD 32 | .notBorrow => s.getLsbD 32)

/-- The logical class: V = C = 0 (R542). -/
def Machine.logicClass (r : Word) : AluOut := aluOut r false false

/-- Result and flags of a function that is no multiply step, from A, B, and C before the instruction. The
multiply steps are `mulStep`. -/
def AluFn.out (fn : AluFn) (sense : Config.CarrySense) (a b : Word) (c : Bool) : AluOut :=
  match fn with
  | .add => addClass a b false
  | .inc => addClass a 1 false
  | .addC => addClass a 0 c
  | .addBC => addClass a b c
  | .sub => subClass sense a b true
  | .dec => subClass sense a 1 true
  | .subC => subClass sense a 0 c
  | .subBC => subClass sense a b c
  | .neg => subClass sense 0 a true
  | .or => logicClass (a ||| b)
  | .and => logicClass (a &&& b)
  | .xor => logicClass (a ^^^ b)
  | .not => logicClass (~~~a)
  | .notAorB => logicClass (~~~a ||| b)
  | .AorNotB => logicClass (a ||| ~~~b)
  | .notAorNotB => logicClass (~~~a ||| ~~~b)
  | .notAandB => logicClass (~~~a &&& b)
  | .AandNotB => logicClass (a &&& ~~~b)
  | .notAandNotB => logicClass (~~~a &&& ~~~b)
  | .notAxorB => logicClass (~~~a ^^^ b)
  | .AxorNotB => logicClass (a ^^^ ~~~b)
  | .fls => logicClass 0
  | .tru => logicClass (BitVec.allOnes 32)
  | .copy => logicClass a
  | .mulFirst | .mulNext => logicClass 0

/-- Whether a function is arithmetic, type 6.3, and no multiply step: V = 1 requests SPR (R544). -/
def AluFn.requestsSpr : AluFn → Bool
  | .add | .inc | .sub | .dec | .addC | .addBC | .subC | .subBC | .neg => true
  | _ => false

/-- A multiply step: the open parameter's destination value, gr7 value and flags (R575, R576, entry 10). -/
def Machine.mulStep (first : Bool) (a g : Word) (f : BitVec 4) : Word × Word × BitVec 4 :=
  if first then Config.mulFirstStep a g f else Config.mulNextStep a g f

/-- gr[d] and gr7 after a multiply step; the order of the two writes is open when d is 7 (entry 10). -/
def Machine.State.mulRegs (s : State) (first : Bool) (d a : Ix) : State :=
  if d = 7 then s.setGr 7 (Config.mulOnGr7 first (s.gr a) (s.gr 7) s.flags)
  else (s.setGr d (mulStep first (s.gr a) (s.gr 7) s.flags).1).setGr 7
    (mulStep first (s.gr a) (s.gr 7) s.flags).2.1

/-- A multiply step written back: gr[d], gr7 and, unless `noflags`, the flags (R575, R576). -/
def Machine.State.mulWrite (s : State) (first noflags : Bool) (d a : Ix) : State :=
  if noflags then s.mulRegs first d a
  else (s.mulRegs first d a).setFlags (mulStep first (s.gr a) (s.gr 7) s.flags).2.2

/-- SPR is requested when an arithmetic operation that writes the flags overflows (R544, R802). -/
def Machine.State.requestSpr (s : State) (fn : AluFn) (f : BitVec 4) : State :=
  if fn.requestsSpr && f.getLsbD 1 then s.raise 7 else s

/-- An operation that is no multiply step, in one of its three forms (R545, R546, R547). -/
def Machine.State.aluWrite (s : State) (f : AluForm) (o : AluOut) (fn : AluFn) : State :=
  match f with
  | .std d => ((s.setGr d o.r).setFlags o.flags).requestSpr fn o.flags
  | .flagsOnly => (s.setFlags o.flags).requestSpr fn o.flags
  | .noflags d => s.setGr d o.r

/-- The result of a shift, 1 <= n <= 31 (R601 to R607); `c` is C before the instruction. -/
def ShiftKind.result (k : ShiftKind) (a : Word) (n : Nat) (c : Bool) : Word :=
  match k with
  | .shl => a <<< n
  | .shr => a >>> n
  | .sar => a.sshiftRight n
  | .rol => a <<< n ||| a >>> (32 - n)
  | .ror => a >>> n ||| a <<< (32 - n)
  | .rcl => a.extractLsb' 0 31 ++ BitVec.ofBool c
  | .rcr => BitVec.ofBool c ++ a.extractLsb' 1 31

/-- The last bit shifted out (R542, R601 to R607). -/
def ShiftKind.carry (k : ShiftKind) (a : Word) (n : Nat) : Bool :=
  match k with
  | .shl | .rol => a.getLsbD (32 - n)
  | .shr | .sar | .ror => a.getLsbD (n - 1)
  | .rcl => a.getLsbD 31
  | .rcr => a.getLsbD 0

/-- ShiftOverflow (R542). -/
def Machine.State.shiftV (s : State) (k : ShiftKind) (a : Word) (n : Fin 33) : Bool :=
  s.params.shiftOverflow.contains (k, a, n)

/-- Result and flags of a shift by 1 to 31. -/
def Machine.State.shiftOut (s : State) (k : ShiftKind) (a : Word) (n : Fin 33) : AluOut :=
  aluOut (k.result a n (s.psw 0)) (s.shiftV k a n) (k.carry a n)

/-- The right part of a scalar instruction, executed on the state before it (R330, R540 to R549). A shift by 0
or 32 is no operation (R600). -/
def Machine.State.rightPart (s : State) : SRight → State
  | .nul => s
  | .alu f .mulFirst a _ =>
    match f with
    | .std d => s.mulWrite true false d a
    | .noflags d => s.mulWrite true true d a
    | .flagsOnly => s
  | .alu f .mulNext a _ =>
    match f with
    | .std d => s.mulWrite false false d a
    | .noflags d => s.mulWrite false true d a
    | .flagsOnly => s
  | .alu f fn a b => s.aluWrite f (fn.out s.params.carrySense (s.gr a) (s.gr b) (s.psw 0)) fn
  | .shift k d a n =>
    if shiftIsNul n then s
    else (s.setGr d (s.shiftOut k (s.gr a) n).r).setFlags (s.shiftOut k (s.gr a) n).flags

end Sys2Proof
end

