-- ==== Sys2Proof/Machine/Datapath.lean ====
section
/-! DEFINITION. The data path of the Vector Unit: splits into elements, activation, shifter, Active Matrix
and Vector ALU (spec/10_state.md R128 to R135, spec/45_vector_right.md R700 to R790). -/

namespace Sys2Proof.Machine

open Sys2Proof

/-! ### Elements of a long word -/

/-- The elements (lowest bit, width) from bit `i` on, `rest` bits remaining, the current element starting at
`lo`; an element ends where `isEnd` says so, and at bit 63. -/
def elementsFrom (isEnd : Nat → Bool) : (rest i lo : Nat) → List (Nat × Nat)
  | 0, _, _ => []
  | rest + 1, i, lo =>
    if isEnd i || rest == 0 then (lo, i + 1 - lo) :: elementsFrom isEnd rest (i + 1) (i + 1)
    else elementsFrom isEnd rest (i + 1) lo

/-- The elements of a 64-bit word, lowest first. -/
def elements (isEnd : Nat → Bool) : List (Nat × Nat) := elementsFrom isEnd 64 0 0

/-- `SplitF(f)`: an element ends at bit i when f[i] = 1 and f[i+1] = 0 (R128). -/
def splitF (f : Long) : List (Nat × Nat) := elements fun i => f.getLsbD i && !f.getLsbD (i + 1)

/-- `SplitNB(nb)`: an element ends at every bit that is 1 (R133). -/
def splitNB (nb : Long) : List (Nat × Nat) := elements fun i => nb.getLsbD i

/-- `SplitSB(s)`: an element starts at bit 2j where s[j] = 1, and at bit 0 (R135). -/
def splitSB (s : Word) : List (Nat × Nat) :=
  elements fun i => (i + 1) % 2 == 0 && s.getLsbD ((i + 1) / 2)

/-- `Rows(s)` (R135). -/
def rows (s : Word) : Nat := (splitSB s).length

/-- The unsigned value of an element. -/
def field (v : Long) (e : Nat × Nat) : Nat := v.toNat / 2 ^ e.1 % 2 ^ e.2

/-- The two's-complement value of an element (D23). -/
def signedField (v : Long) (e : Nat × Nat) : Int :=
  if field v e < 2 ^ (e.2 - 1) then field v e else (field v e : Int) - 2 ^ e.2

/-- The word whose element `e` is `f e` modulo its range: nothing carries into a neighbour (R703). -/
def packElements (es : List (Nat × Nat)) (f : Nat × Nat → Nat) : Long :=
  BitVec.ofNat 64 ((es.map fun e => f e % 2 ^ e.2 * 2 ^ e.1).sum)

/-! ### Activation (R129, R130, R770) -/

/-- The number of bits of `f` that are 1 in the `n` bits from `lo` on. -/
def onesIn (f : Long) (lo : Nat) : Nat → Nat
  | 0 => 0
  | n + 1 => onesIn f lo n + (f.getLsbD (lo + n)).toNat

/-- `Sat(d, n, k)` (R129, D31). -/
def sat (d n k : Nat) : Nat :=
  let top := d / 2 ^ (n - k)
  if top = 0 ∨ top = 2 ^ k - 1 then d
  else if d < 2 ^ (n - 1) then 2 ^ (n - k) - 1
  else (2 ^ k - 1) * 2 ^ (n - k)

/-- `Saturate(f, D)` (R129). -/
def saturate (f v : Long) : Long :=
  packElements (splitF f) fun e => sat (field v e) e.2 (onesIn f e.1 e.2)

/-- `Threshold(f, D)` (R130). -/
def threshold (f v : Long) : Long :=
  packElements (splitF f) fun e => if field v e < 2 ^ (e.2 - 1) then 0 else 2 ^ e.2 - 1

/-- Which activation function an operation uses (R770). -/
inductive ActKind
  | threshold | saturate
  deriving DecidableEq, Repr

/-- `Act(f, v)` where `activate` stands, else `v` (R701). -/
def activateIf (on : Bool) (kind : ActKind) (f v : Long) : Long :=
  if on then (match kind with | .threshold => threshold f v | .saturate => saturate f v) else v

/-! ### Shifter, Vector ALU, Active Matrix -/

/-- `Ror1(x)` (R702). -/
def ror1 (x : Long) : Long := BitVec.ofBool (x.getLsbD 0) ++ x.extractLsb' 1 63

/-- `One(nb2)` (R700). -/
def oneDevice (nb2 : Long) : Long := packElements (splitNB nb2) fun _ => 1

/-- `AddNB(nb2, A, B)` (R703). -/
def addNB (nb2 a b : Long) : Long := packElements (splitNB nb2) fun e => field a e + field b e

/-- `SubNB(nb2, A, B)` (R703). -/
def subNB (nb2 a b : Long) : Long :=
  packElements (splitNB nb2) fun e => field a e + (2 ^ e.2 - field b e)

/-- The sum over the rows of X_j times the weight of column `col` (R760). -/
def weightSum (x : Long) (col : Nat × Nat) : List (Nat × Nat) → List Long → Int
  | e :: es, w :: ws => signedField x e * (field w col : Int) + weightSum x col es ws
  | _, _ => 0

/-- The weighted accumulation with the operand of path Y (R760). -/
def weighted (nb2 : Long) (sb2 : Word) (wa : List Long) (x y : Long) : Long :=
  packElements (splitNB nb2) fun col =>
    ((((field y col : Int) + weightSum x col (splitSB sb2) wa) % 2 ^ col.2).toNat)

/-- The image of sb in `store vregs`: odd bits from sb1, even bits from sb2 (R790). -/
def sbImage (sb1 sb2 : Word) : Long :=
  BitVec.ofFnLE fun i : Fin 64 => if i.val % 2 = 1 then sb1.getLsbD (i / 2) else sb2.getLsbD (i / 2)

/-! ### Operands (R700, R701) -/

/-- The long words that enter the data path at one repetition. -/
structure Lane where
  data : Long
  ram : Long
  afifo : Long
  deriving DecidableEq, Repr

/-- The word of a buffer at one repetition. -/
def Lane.buf (l : Lane) : Buf → Long
  | .data => l.data
  | .ram => l.ram
  | .afifo => l.afifo

/-- `Val(S, k)` (R700). -/
def State.srcVal (s : State) (l : Lane) : VSrc → Long
  | .buf b => l.buf b
  | .null => 0
  | .one => oneDevice s.nb2
  | .vr => s.vr

/-- Path X: mask, activation unit 1, shifter (R701). -/
def State.pathX (s : State) (l : Lane) (kind : ActKind) (m : Option Buf) (shift : Bool) (x : VArg) : Long :=
  let x0 := s.srcVal l x.src
  let x1 := match m with | none => x0 | some b => x0 &&& l.buf b
  let x2 := activateIf x.act kind s.f1cr x1
  if shift then ror1 x2 else x2

/-- Path Y: inverted mask, activation unit 2 (R701). -/
def State.pathY (s : State) (l : Lane) (kind : ActKind) (m : Option Buf) (y : VArg) : Long :=
  let y0 := s.srcVal l y.src
  let y1 := match m with | none => y0 | some b => y0 &&& ~~~(l.buf b)
  activateIf y.act kind s.f2cr y1

/-- A complement where `not` stands. -/
def notIf (on : Bool) (v : Long) : Long := if on then ~~~v else v

/-- A logical operation of the Vector ALU (R720 to R730). -/
def logicOp (op : VLogOp) (x y : Long) : Long :=
  match op with
  | .or => x ||| y
  | .and => x &&& y
  | .xor => x ^^^ y

/-- The five words of `store vregs` (R790, D27). -/
def State.vregWords (s : State) : List Long := [s.f2cr, s.f1cr, s.nb2, sbImage s.sb1 s.sb2, s.vr]

/-- `VOp(R, k)`: the result of a right part at repetition `k` (R700, R701). -/
def State.vop (s : State) (r : VRight) (k : Nat) (l : Lane) : Long :=
  match r with
  | .none => 0
  | .logic op nx ny x y =>
    logicOp op (notIf nx (s.pathX l .threshold none false x)) (notIf ny (s.pathY l .threshold none y))
  | .fill ones => if ones then BitVec.allOnes 64 else 0
  | .arith sub x y =>
    let a := s.pathX l .saturate none false x
    let b := s.pathY l .saturate none y
    if sub then subNB s.nb2 a b else addNB s.nb2 a b
  | .mask m shift x y => s.pathX l .threshold (some m) shift x ||| s.pathY l .threshold (some m) y
  | .vsum m shift x y => weighted s.nb2 s.sb2 s.wa (s.pathX l .saturate m shift x) (s.pathY l .saturate m y)
  | .storeRegs => s.vregWords.getD k 0

end Sys2Proof.Machine
end

