-- ==== Sys2Proof/Machine/Operands.lean ====
section
/-! DEFINITION. Operand forms: addressing modes, address modifications, conditions and targets of control
transfers, and the vector memory modes. -/

namespace Sys2Proof

open Sys2Proof.Machine

/-! ### Scalar addressing modes (spec/20_memory.md R210) -/

/-- The effective address of a mode: `k` is the instruction's constant, `step` is 1 or 2. -/
def Mode.ea (m : Mode) (k : Word) (step : Word) (s : State) : Word :=
  match m with
  | .const | .arSetConst _ => k
  | .ar n | .arInc n | .arIncGr n => s.ar n
  | .gr n | .arSetGr n => s.gr n
  | .decAr n => s.ar n - step
  | .arAddGr n => s.ar n + s.gr n
  | .arAddConst n => s.ar n + k
  | .arSubConst n => s.ar n - k

/-- The register update of a mode. -/
def Mode.upd (m : Mode) (k : Word) (step : Word) (s : State) : Option (Ix × Word) :=
  match m with
  | .const | .ar _ | .gr _ => none
  | .arInc n => some (n, s.ar n + step)
  | .decAr n => some (n, s.ar n - step)
  | .arIncGr n | .arAddGr n => some (n, s.ar n + s.gr n)
  | .arSetGr n => some (n, s.gr n)
  | .arSetConst n => some (n, k)
  | .arAddConst n => some (n, s.ar n + k)
  | .arSubConst n => some (n, s.ar n - k)

/-- The access step of a data register: 1 word, or 2 (R210). -/
def Reg.step (r : Reg) : Word := if r.wide then 2 else 1

/-! ### Address modification (spec/41 R451 to R460) -/

/-- The destination of an address modification. -/
def ArOp.dst : ArOp → Ix
  | .movAr d _ | .movGr d _ | .addGr d _ | .addConst d _ | .subConst d _ | .setConst d
  | .inc d | .dec d | .incGr d | .decGr d | .incConst d | .decConst d => d

/-- The value an address modification writes, modulo 2^32. -/
def ArOp.value (o : ArOp) (k : Word) (s : State) : Word :=
  match o with
  | .movAr _ n => s.ar n
  | .movGr _ n => s.gr n
  | .addGr _ n => s.ar n + s.gr n
  | .addConst _ n => s.ar n + k
  | .subConst _ n => s.ar n - k
  | .setConst _ => k
  | .inc d => s.ar d + 1
  | .dec d => s.ar d - 1
  | .incGr d => s.ar d + s.gr d
  | .decGr d => s.ar d - s.gr d
  | .incConst d => s.ar d + k
  | .decConst d => s.ar d - k

/-! ### Control transfers (spec/42_control_transfer.md) -/

/-- `Cond(cond, pswr)` (R520). -/
def Cond.holds (c : Cond) (s : State) : Bool :=
  let n := s.psw 3
  let z := s.psw 2
  let v := s.psw 1
  let y := s.psw 0
  match c with
  | .always => true
  | .eq0 => z
  | .ne0 => !z
  | .gt => !z && !n
  | .lt => n
  | .ge => !n
  | .le => n || z
  | .uge => !y
  | .ult => y
  | .carry => y
  | .notCarry => !y
  | .vtrue => v
  | .vfalse => !v
  | .vgt => !((n ^^ v) || z)
  | .vlt => n ^^ v
  | .vge => !(n ^^ v)
  | .vle => (n ^^ v) || z

/-- The address of a `goto` or `call` (R480 to R484). -/
def Target.addr (t : Target) (k : Word) (s : State) : Word :=
  match t with
  | .const => k
  | .ar n => s.ar n
  | .gr n => s.gr n
  | .arGr n => s.ar n + s.gr n
  | .arAdd n => s.ar n + k
  | .arSub n => s.ar n - k

/-- The displacement of a `skip` or `callrel` (R485, R486). -/
def RelTarget.disp (t : RelTarget) (k : Word) (s : State) : Word :=
  match t with
  | .const => k
  | .gr n => s.gr n

/-- `Target(kind, target, state)`, `base` being the address after the instruction (R472, R485). -/
def Xfer.target (x : Xfer) (k base : Word) (s : State) : Word :=
  match x with
  | .goto t | .call t => t.addr k s
  | .skip t | .callrel t => base + t.disp k s
  | .ret | .iret => 0

/-- The action of a control transfer. A return has no target of its own. -/
def Xfer.kind : Xfer → XferKind
  | .goto _ | .skip _ => .jump
  | .call _ | .callrel _ => .call
  | .ret => .ret
  | .iret => .iret

/-- DelaySlots: 1 unless the parameter lists the case (R475, entry 9). -/
def Machine.slotsAt (l : List (Config.DelayCase × Fin 3)) (c : Config.DelayCase) : Nat :=
  match l with
  | [] => 1
  | (b, n) :: t => if c = b then n.val + 1 else slotsAt t c

/-! ### Vector memory modes (spec/44_vector_left.md R634) -/

/-- EA_k of a mode, repetition `k` counted from 0. -/
def VMode.ea (m : VMode) (k : Nat) (s : State) : Word :=
  match m with
  | .ar n => s.ar n
  | .gr n | .arSetGr n => s.gr n
  | .arInc n => s.ar n + BitVec.ofNat 32 (2 * k)
  | .decAr n => s.ar n - BitVec.ofNat 32 (2 * (k + 1))
  | .arIncGr n => s.ar n + BitVec.ofNat 32 k * s.gr n
  | .arAddGr n => s.ar n + BitVec.ofNat 32 (k + 1) * s.gr n

/-- The register update of a mode used `count` times. -/
def VMode.upd (m : VMode) (count : Nat) (s : State) : Option (Ix × Word) :=
  match m with
  | .ar _ | .gr _ => none
  | .arSetGr n => some (n, s.gr n)
  | .arInc n => some (n, s.ar n + BitVec.ofNat 32 (2 * count))
  | .decAr n => some (n, s.ar n - BitVec.ofNat 32 (2 * count))
  | .arIncGr n | .arAddGr n => some (n, s.ar n + BitVec.ofNat 32 count * s.gr n)

/-- Whether a register that takes part in the addressing is odd (R633). -/
def VMode.odd (m : VMode) (s : State) : Bool :=
  match m with
  | .ar n | .arInc n | .decAr n => (s.ar n).odd
  | .gr n | .arSetGr n => (s.gr n).odd
  | .arIncGr n | .arAddGr n => (s.ar n).odd || (s.gr n).odd

end Sys2Proof
end

