-- ==== Sys2Proof/Machine/Vector.lean ====
section
/-! DEFINITION. The execution of a vector instruction as one step (spec/44_vector_left.md R631), with the
checks of R636 and R715. -/

namespace Sys2Proof

open Sys2Proof.Machine

/-! ### What a vector instruction reads and writes (R715) -/

/-- Whether an operand is a buffer. -/
def VArg.reads (a : VArg) (b : Buf) : Bool := a.src == .buf b

/-- Whether a right part names a buffer as X, Y or mask (R715). -/
def VRight.reads (r : VRight) (b : Buf) : Bool :=
  match r with
  | .none | .fill _ | .storeRegs => false
  | .logic _ _ _ x y | .arith _ x y => x.reads b || y.reads b
  | .mask m _ x y => m == b || x.reads b || y.reads b
  | .vsum m _ x y => m == some b || x.reads b || y.reads b

/-- Whether a left part loads (V1). -/
def VMem.isLoad : VMem → Bool
  | .load _ _ => true
  | .none | .store _ _ => false

/-- Whether a left part stores afifo. -/
def VMem.isStore : VMem → Bool
  | .store _ _ => true
  | .none | .load _ _ => false

/-- Whether a left part writes ram (R635, R715). -/
def VMem.writesRam : VMem → Bool
  | .load b _ => b == .ram
  | .store _ alsoRam => alsoRam
  | .none => false

/-- Whether a left part loads wfifo (R636). -/
def VMem.loadsWfifo : VMem → Bool
  | .load b _ => b == .wfifo
  | .none | .store _ _ => false

/-- The number of words a left part loads into wfifo (R636). -/
def VMem.wfifoLoad (m : VMem) (count : Nat) : Nat := if m.loadsWfifo then count else 0

/-- The memory mode of a left part. -/
def VMem.mode : VMem → Option VMode
  | .none => Option.none
  | .load _ m | .store m _ => some m

/-- The checks V1 to V6: whether one of them fails (R715). -/
def Machine.State.vectorError (s : State) (count : Nat) (m : VMem) (r : VRight) : Bool :=
  let readsA := r.reads .afifo || m.isStore
  (r.reads .data && !m.isLoad)                                                      -- V1
    || (readsA && s.afifo.isEmpty)                                                  -- V2
    || (readsA && s.afifo.length != count)                                          -- V3
    || (r != .none && !s.afifo.isEmpty && !readsA)                                  -- V4
    || (r.reads .ram && (s.ram.isEmpty || s.ram.length != count))                   -- V5
    || (m.writesRam && r.reads .ram)                                                -- V6

/-- The checks W1 and W2 of wfifo: whether the processor blocks (R636). `loaded` words are loaded by the
same instruction. -/
def Machine.State.wfifoBlocks (s : State) (loaded : Nat) (ftw : Bool) : Bool :=
  let q := if ftw then rows s.sb1 else 0
  (ftw && decide (s.wfifo.length + loaded < q)) || decide (32 < s.wfifo.length + loaded - q)

/-! ### The pieces of a step (R631) -/

/-- The words a load reads, k = 0 .. count-1 (step 5). -/
def Machine.State.vectorRead (s : State) (m : VMode) (count : Nat) : List Long :=
  (List.range count).map fun k => s.read64 k (m.ea k s)

/-- The words stored from repetition `k` on, one after another (step 7); `s` gives the addresses. -/
def Machine.State.vectorWrite (s : State) (m : VMode) : (k : Nat) → List Long → State → State
  | _, [], t => t
  | k, w :: ws, t => s.vectorWrite m (k + 1) ws (t.write64 (m.ea k s) w)

/-- The words a left part reads from memory (step 5). -/
def Machine.State.vectorData (s : State) (m : VMem) (count : Nat) : List Long :=
  match m with
  | .load _ v => s.vectorRead v count
  | .none | .store _ _ => []

/-- z_0 .. z_(count-1) (step 6). -/
def Machine.State.vectorResults (s : State) (r : VRight) (count : Nat) (data : List Long) : List Long :=
  (List.range count).map fun k =>
    s.vop r k ⟨data.getD k 0, s.ram.getD k 0, s.afifo.getD k 0⟩

/-- Memory and the address register after the left part (steps 4 and 7). -/
def Machine.State.vectorStore (s : State) (m : VMem) (count : Nat) : State :=
  let t := match m with
    | .store v _ => s.vectorWrite v 0 s.afifo s
    | .none | .load _ _ => s
  match m.mode with
  | none => t
  | some v => t.applyUpd (v.upd count s)

/-- `ftw`: Rows(sb1) words go from wfifo to the Shadow Matrix (R680). -/
def Machine.State.doFtw (s : State) : State :=
  { s with ws := s.wfifo.take (rows s.sb1), wfifo := s.wfifo.drop (rows s.sb1) }

/-- `wtw`: the Shadow Matrix and its registers are copied to the Active Matrix (R685). -/
def Machine.State.doWtw (s : State) : State := { s with wa := s.ws, nb2 := s.nb1, sb2 := s.sb1 }

/-- `ftw`, then `wtw`, where the left part carries them (step 8). -/
def Machine.State.doWeights (s : State) (ftw wtw : Bool) : State :=
  let t := if ftw then s.doFtw else s
  if wtw then t.doWtw else t

/-- ram after the step (step 8). -/
def Machine.State.ramAfter (s : State) (m : VMem) (data : List Long) : List Long :=
  match m with
  | .load .ram _ => data
  | .store _ true => s.afifo
  | _ => s.ram

/-- afifo after the step (step 8). -/
def Machine.State.afifoAfter (s : State) (m : VMem) (r : VRight) (results : List Long) : List Long :=
  if r != .none then results else if m.isStore then [] else s.afifo

/-- wfifo after the load (step 8). -/
def Machine.State.wfifoAfter (s : State) (m : VMem) (data : List Long) : List Long :=
  if m.loadsWfifo then s.wfifo ++ data else s.wfifo

/-- Whether the Active Matrix has as many rows as sb2 says, where `vsum` uses it (R760). -/
def Machine.State.rowsAgree (s : State) (r : VRight) : Bool :=
  match r with
  | .vsum _ _ _ _ => s.wa.length == rows s.sb2
  | _ => true

/-- Whether the mode of a left part uses an odd register (R633). -/
def Machine.State.vectorOdd (s : State) (m : VMem) : Bool :=
  match m.mode with
  | none => false
  | some v => v.odd s

/-- Steps 4 to 8 of R631: the state after a vector instruction that passes its checks, ipc apart. -/
def Machine.State.vectorEffect (s : State) (count : Nat) (l : VLeft) (r : VRight) : State :=
  let data := s.vectorData l.mem count
  let results := s.vectorResults r count data
  let t := s.vectorStore l.mem count
  { t with
    ram := s.ramAfter l.mem data
    afifo := s.afifoAfter l.mem r results
    wfifo := s.wfifoAfter l.mem data : State }.doWeights l.ftw l.wtw

/-- `ipc <- ipc + 1`. -/
def Machine.State.advance (s : State) (len : Word) : State := { s with ipc := s.ipc + len }

/-- The processor is blocked: nothing else changes (R845). -/
def Machine.State.block (s : State) : State := { s with stuck := true }

/-- A vector instruction with a repetition count (R631). `n` is the count less one. -/
def Machine.runVector (_p : Bool) (n : Rep) (l : VLeft) (r : VRight) (s : State) : Result :=
  let count := n.val + 1
  match vectorDefect n l r with
  | some d => .refused (.illFormed d)
  | none =>
    if s.wfifoBlocks (l.mem.wfifoLoad count) l.ftw then .next s.block
    else if s.vectorError count l.mem r then ((s.raise 6).advance 1).finish s.pending
    else if s.vectorOdd l.mem then .refused .oddVectorAddress
    else if !s.rowsAgree r then .refused .rowCountMismatch
    else ((s.vectorEffect count l r).advance 1).finish s.pending

/-- A vector instruction without a repetition count (R680, R685, R687, R690). -/
def Machine.runBare (_p : Bool) (b : VBare) (s : State) : Result :=
  match b with
  | .vnul => (s.advance 1).finish s.pending
  | .wtw => (s.doWtw.advance 1).finish s.pending
  | .ftw =>
    if s.wfifoBlocks 0 true then .next s.block else (s.doFtw.advance 1).finish s.pending
  | .ftwWtw =>
    if s.wfifoBlocks 0 true then .next s.block else (s.doFtw.doWtw.advance 1).finish s.pending

end Sys2Proof
end

