-- ==== Sys2Proof/Machine/Scalar.lean ====
section
/-! DEFINITION. The execution of a scalar instruction (spec/40 R330): both parts read the state before it, the
right part writes its result and flags, then the left part writes (D29, D32, entry 29). -/

namespace Sys2Proof

open Sys2Proof.Machine

/-- A load of `dst` (R340 to R350): address and update from the state before, the loaded value wins (R212). -/
def Machine.State.doLoad (s t : State) (dst : Reg) (m : Mode) (k : Word) : Except Refusal State :=
  match s.load dst.wide (m.ea k dst.step s) with
  | .error r => .error r
  | .ok v => .ok ((t.applyUpd (m.upd k dst.step s)).writeReg dst v)

/-- A store of `src` (R355 to R364): the value is that before the instruction (R212). -/
def Machine.State.doStore (s t : State) (m : Mode) (src : Reg) (k : Word) : Except Refusal State :=
  match t.store src.wide (m.ea k src.step s) (s.readReg src) with
  | .error r => .error r
  | .ok u => .ok (u.applyUpd (m.upd k src.step s))

/-- The lengths of up to `n` instructions from address `a` on, as far as they decode (`lens` of R475); the words are
read as access number 66 of the step. -/
def Machine.State.lensFrom (s : State) : (n : Nat) → Word → List Nat
  | 0, _ => []
  | n + 1, a =>
    match lengthOfWord (s.read32 66 a) with
    | none => []
    | some len => len :: s.lensFrom n (a + BitVec.ofNat 32 len)

/-- The number of delayed instructions of the branch `c` at ipc: DelaySlots(instr, addr, lens) (R475). -/
def Machine.State.slots (s : State) (c : Code) : Nat :=
  slotsAt s.params.delaySlots ⟨c, s.ipc, s.lensFrom 3 (s.ipc + c.len)⟩

/-- The record a delayed transfer leaves (R472, R475); `base` is the address after it, `slots` the number of its
delayed instructions. -/
def Machine.State.delayRecord (s : State) (c : Cond) (x : Xfer) (k base : Word) (slots : Nat) : Pending where
  taken := c.holds s
  kind := x.kind
  target := x.target k base s
  n := slots

/-- A control transfer (R472, R475, R477). `t` is the state after the right part, with ipc after the
instruction; conditions and targets come from the state before it. -/
def Machine.State.doXfer (s t : State) (c : Cond) (delayed : Bool) (x : Xfer) (k : Word) (slots : Nat) :
    Except Refusal State :=
  if s.pending.isSome then (if c.holds s then .error .transferInDelayWindow else .ok t)
  else if delayed then
    .ok { t with pending := some (s.delayRecord c x k t.ipc slots) }
  else if c.holds s then t.action x.kind (x.target k t.ipc s) t.ipc
  else .ok t

/-- The left part of a scalar instruction: `s` is the state before the instruction, `t` the state after its
right part, with ipc after the instruction; `slots` is the number of delayed instructions a delayed transfer has. -/
def Machine.State.leftPart (s t : State) (l : SLeft) (k : Word) (slots : Nat) : Except Refusal State :=
  match l with
  | .nul | .nulC => .ok t
  | .load dst m => s.doLoad t dst m k
  | .store m src => s.doStore t m src k
  | .push src => s.doStore t (.arInc 7) src k
  | .pop dst => s.doLoad t dst (.decAr 7) k
  | .popDrop => .ok (t.setAr 7 (s.sp - s.params.popDropWords))
  | .copy dst src => .ok (t.writeReg dst (widen dst src (s.readReg src)))
  | .setConst dst => .ok (t.writeReg dst (Long.ofHalves k k))
  | .arMod o => .ok (t.setAr o.dst (o.value k s))
  | .pswrSet => .ok { t with pswr := t.pswr ||| k }
  | .pswrClear => .ok { t with pswr := t.pswr &&& ~~~k }
  | .xfer c delayed x => s.doXfer t c delayed x k slots

/-- The length of a scalar instruction (R266). -/
def SLeft.len (l : SLeft) : Word := if l.long then 2 else 1

/-- A scalar instruction (R330). `k` is its constant where the left part has one. -/
def Machine.runScalar (p : Bool) (l : SLeft) (k : Word) (r : SRight) (s : State) : Result :=
  match scalarDefect l r with
  | some d => .refused (.illFormed d)
  | none =>
    if l.long && s.ipc.odd then .refused .longAtOddAddress
    else
      match s.leftPart ((s.rightPart r).advance l.len) l k (s.slots ⟨.scalar p l r, k⟩) with
      | .error e => .refused e
      | .ok t => t.finish s.pending

/-- An instruction of R264. -/
def Machine.run (c : Code) (s : State) : Result :=
  match c.low with
  | .scalar p l r => runScalar p l c.k r s
  | .vector p n l r => runVector p n l r s
  | .bare p b => runBare p b s

end Sys2Proof
end

