-- ==== Sys2Proof/Machine/FamilyAddrMod.lean ====
section
/-! DEFINITION. The meanings of address modification (spec/41): one definition per row of the opcode table,
each the execution of the instruction of R264 the row stands for. -/

namespace Sys2Proof.Machine

open Sys2Proof

/-- `arD = arS addr` (R451). -/
def execAmMovAr (p : Bool) (d : Ix) (src : Ix) (r : SRight) (s : State) : Result :=
  runScalar p (.arMod (.movAr d src)) 0 r s

/-- `arD = grS addr` (R452). -/
def execAmMovGr (p : Bool) (d : Ix) (src : Ix) (r : SRight) (s : State) : Result :=
  runScalar p (.arMod (.movGr d src)) 0 r s

/-- `arD = arS+grS` (R453). -/
def execAmAddGr (p : Bool) (d : Ix) (src : Ix) (r : SRight) (s : State) : Result :=
  runScalar p (.arMod (.addGr d src)) 0 r s

/-- `arD = arS+K | arD = arS-K` (R454). -/
def execAmAddConst (p : Bool) (d : Ix) (src : Ix) (neg : Bool) (k : Word) (r : SRight) (s : State) : Result :=
  runScalar p (.arMod (.addSubConst neg d src)) k r s

/-- `arD = K addr` (R455). -/
def execAmSetConst (p : Bool) (d : Ix) (k : Word) (r : SRight) (s : State) : Result :=
  runScalar p (.arMod (.setConst d)) k r s

/-- `arD++` (R456). -/
def execAmInc (p : Bool) (d : Ix) (r : SRight) (s : State) : Result :=
  runScalar p (.arMod (.inc d)) 0 r s

/-- `arD--` (R457). -/
def execAmDec (p : Bool) (d : Ix) (r : SRight) (s : State) : Result :=
  runScalar p (.arMod (.dec d)) 0 r s

/-- `arD+=grD | arD-=grD` (R458). -/
def execAmIncGr (p : Bool) (d : Ix) (neg : Bool) (r : SRight) (s : State) : Result :=
  runScalar p (.arMod (.incDecGr neg d)) 0 r s

/-- `arD+=K` (R459). -/
def execAmIncConst (p : Bool) (d : Ix) (k : Word) (r : SRight) (s : State) : Result :=
  runScalar p (.arMod (.incConst d)) k r s

/-- `arD-=K` (R460). -/
def execAmDecConst (p : Bool) (d : Ix) (k : Word) (r : SRight) (s : State) : Result :=
  runScalar p (.arMod (.decConst d)) k r s

end Sys2Proof.Machine
end

