-- ==== Sys2Proof/Machine/FamilyArith.lean ====
section
/-! DEFINITION. The meanings of scalar arithmetic and the multiply steps (spec/43): one definition per row of the opcode table,
each the execution of the instruction of R264 the row stands for. -/

namespace Sys2Proof.Machine

open Sys2Proof

/-- `grD = grA + grB` (R550). -/
def execAdd (p : Bool) (l : SLeft) (k : Word) (nf : Bool) (d : Ix) (a : Ix) (b : Ix) (s : State) : Result :=
  runScalar p l (l.constOf k) (.alu (.withDst nf d) .add a b) s

/-- `grD += grB` (R551). -/
def execAddTo (p : Bool) (l : SLeft) (k : Word) (nf : Bool) (d : Ix) (b : Ix) (s : State) : Result :=
  runScalar p l (l.constOf k) (.alu (.withDst nf d) .add d b) s

/-- `grD = grA + 1` (R552). -/
def execInc (p : Bool) (l : SLeft) (k : Word) (nf : Bool) (d : Ix) (a : Ix) (s : State) : Result :=
  runScalar p l (l.constOf k) (.alu (.withDst nf d) .inc a 0) s

/-- `grD++` (R553). -/
def execIncSelf (p : Bool) (l : SLeft) (k : Word) (nf : Bool) (d : Ix) (s : State) : Result :=
  runScalar p l (l.constOf k) (.alu (.withDst nf d) .inc d 0) s

/-- `grD = grA - grB` (R554). -/
def execSub (p : Bool) (l : SLeft) (k : Word) (nf : Bool) (d : Ix) (a : Ix) (b : Ix) (s : State) : Result :=
  runScalar p l (l.constOf k) (.alu (.withDst nf d) .sub a b) s

/-- `grD -= grB` (R555). -/
def execSubFrom (p : Bool) (l : SLeft) (k : Word) (nf : Bool) (d : Ix) (b : Ix) (s : State) : Result :=
  runScalar p l (l.constOf k) (.alu (.withDst nf d) .sub d b) s

/-- `grD = grA - 1` (R556). -/
def execDec (p : Bool) (l : SLeft) (k : Word) (nf : Bool) (d : Ix) (a : Ix) (s : State) : Result :=
  runScalar p l (l.constOf k) (.alu (.withDst nf d) .dec a 0) s

/-- `grD--` (R557). -/
def execDecSelf (p : Bool) (l : SLeft) (k : Word) (nf : Bool) (d : Ix) (s : State) : Result :=
  runScalar p l (l.constOf k) (.alu (.withDst nf d) .dec d 0) s

/-- `grD = grA + carry` (R558). -/
def execAddC (p : Bool) (l : SLeft) (k : Word) (nf : Bool) (d : Ix) (a : Ix) (s : State) : Result :=
  runScalar p l (l.constOf k) (.alu (.withDst nf d) .addC a 0) s

/-- `grD = grA + grB + carry` (R559). -/
def execAddBC (p : Bool) (l : SLeft) (k : Word) (nf : Bool) (d : Ix) (a : Ix) (b : Ix) (s : State) : Result :=
  runScalar p l (l.constOf k) (.alu (.withDst nf d) .addBC a b) s

/-- `grD = grA - 1 + carry` (R560). -/
def execSubC (p : Bool) (l : SLeft) (k : Word) (nf : Bool) (d : Ix) (a : Ix) (s : State) : Result :=
  runScalar p l (l.constOf k) (.alu (.withDst nf d) .subC a 0) s

/-- `grD = grA - grB - 1 + carry` (R561). -/
def execSubBC (p : Bool) (l : SLeft) (k : Word) (nf : Bool) (d : Ix) (a : Ix) (b : Ix) (s : State) : Result :=
  runScalar p l (l.constOf k) (.alu (.withDst nf d) .subBC a b) s

/-- `grD = - grA` (R562). -/
def execNegGr (p : Bool) (l : SLeft) (k : Word) (nf : Bool) (d : Ix) (a : Ix) (s : State) : Result :=
  runScalar p l (l.constOf k) (.alu (.withDst nf d) .neg a 0) s

/-- `grD = grA *: gr7` (R575). -/
def execMulFirst (p : Bool) (l : SLeft) (k : Word) (nf : Bool) (d : Ix) (a : Ix) (s : State) : Result :=
  runScalar p l (l.constOf k) (.alu (.withDst nf d) .mulFirst a 7) s

/-- `grD = grA * gr7` (R576). -/
def execMulNext (p : Bool) (l : SLeft) (k : Word) (nf : Bool) (d : Ix) (a : Ix) (s : State) : Result :=
  runScalar p l (l.constOf k) (.alu (.withDst nf d) .mulNext a 7) s

/-- `grA + grB; (flags-only arithmetic example row)` (R577). -/
def execAddFlags (p : Bool) (l : SLeft) (k : Word) (a : Ix) (b : Ix) (s : State) : Result :=
  runScalar p l (l.constOf k) (.alu .flagsOnly .add a b) s

end Sys2Proof.Machine
end

