-- ==== Sys2Proof/Machine/FamilyCopy.lean ====
section
/-! DEFINITION. The meanings of register copies (spec/41): one definition per row of the opcode table,
each the execution of the instruction of R264 the row stands for. -/

namespace Sys2Proof.Machine

open Sys2Proof

/-- `arD = arS` (R410). -/
def execCpArAr (p : Bool) (d : Ix) (src : Ix) (r : SRight) (s : State) : Result :=
  runScalar p (.copy (.ar d) (.ar src)) 0 r s

/-- `grD = arS` (R411). -/
def execCpGrAr (p : Bool) (d : Ix) (src : Ix) (r : SRight) (s : State) : Result :=
  runScalar p (.copy (.gr d) (.ar src)) 0 r s

/-- `arD = grS` (R412). -/
def execCpArGr (p : Bool) (d : Ix) (src : Ix) (r : SRight) (s : State) : Result :=
  runScalar p (.copy (.ar d) (.gr src)) 0 r s

/-- `grD = grS` (R413). -/
def execCpGrGr (p : Bool) (d : Ix) (src : Ix) (r : SRight) (s : State) : Result :=
  runScalar p (.copy (.gr d) (.gr src)) 0 r s

/-- `arD,grD = arS,grS` (R414). -/
def execCpPairPair (p : Bool) (d : Ix) (src : Ix) (r : SRight) (s : State) : Result :=
  runScalar p (.copy (.pair d) (.pair src)) 0 r s

/-- `arD,grD = arS` (R415). -/
def execCpPairAr (p : Bool) (d : Ix) (src : Ix) (r : SRight) (s : State) : Result :=
  runScalar p (.copy (.pair d) (.ar src)) 0 r s

/-- `arD,grD = grS` (R416). -/
def execCpPairGr (p : Bool) (d : Ix) (src : Ix) (r : SRight) (s : State) : Result :=
  runScalar p (.copy (.pair d) (.gr src)) 0 r s

/-- `vregh = arS (nb1l, nb1h, sbl, sbh, f1crl, f1crh, f2crl, f2crh, vrl, vrh)` (R417). -/
def execCpVHalfAr (p : Bool) (d : VHalf) (src : Ix) (r : SRight) (s : State) : Result :=
  runScalar p (.copy (.vctl (.half d)) (.ar src)) 0 r s

/-- `vregh = grS` (R418). -/
def execCpVHalfGr (p : Bool) (d : VHalf) (src : Ix) (r : SRight) (s : State) : Result :=
  runScalar p (.copy (.vctl (.half d)) (.gr src)) 0 r s

/-- `vreg = arS (nb1, sb, f1cr, f2cr, vr)` (R419). -/
def execCpVRegAr (p : Bool) (d : VReg) (src : Ix) (r : SRight) (s : State) : Result :=
  runScalar p (.copy (.vctl (.full d)) (.ar src)) 0 r s

/-- `vreg = grS` (R420). -/
def execCpVRegGr (p : Bool) (d : VReg) (src : Ix) (r : SRight) (s : State) : Result :=
  runScalar p (.copy (.vctl (.full d)) (.gr src)) 0 r s

/-- `vreg = arS,grS` (R421). -/
def execCpVRegPair (p : Bool) (d : VReg) (src : Ix) (r : SRight) (s : State) : Result :=
  runScalar p (.copy (.vctl (.full d)) (.pair src)) 0 r s

/-- `arD = spec` (R422). -/
def execCpArSpec (p : Bool) (d : Ix) (src : SpecReg) (r : SRight) (s : State) : Result :=
  runScalar p (.copy (.ar d) (.special (.one src))) 0 r s

/-- `grD = spec` (R423). -/
def execCpGrSpec (p : Bool) (d : Ix) (src : SpecReg) (r : SRight) (s : State) : Result :=
  runScalar p (.copy (.gr d) (.special (.one src))) 0 r s

/-- `arD,grD = spec | arD,grD = specpair` (R424). -/
def execCpPairSpec (p : Bool) (d : Ix) (src : Special) (r : SRight) (s : State) : Result :=
  runScalar p (.copy (.pair d) (.special src)) 0 r s

/-- `spec = arS | spec = grS` (R425). -/
def execCpSpecPrim (p : Bool) (d : Special) (src : PReg) (r : SRight) (s : State) : Result :=
  runScalar p (.copy (.special d) src.reg) 0 r s

/-- `spec = spec | specpair = arS,grS | specpair = specpair` (R426). -/
def execCpOther (p : Bool) (d : Reg) (src : Reg) (r : SRight) (s : State) : Result :=
  runScalar p (.copy d src) 0 r s

end Sys2Proof.Machine
end

