-- ==== Sys2Proof/Machine/FamilyFlagOps.lean ====
section
/-! DEFINITION. The meanings of flag setting operations (spec/43): one definition per row of the opcode table,
each the execution of the instruction of R264 the row stands for. -/

namespace Sys2Proof.Machine

open Sys2Proof

/-- `grA;` (R595). -/
def execTestGr (p : Bool) (l : SLeft) (k : Word) (a : Ix) (s : State) : Result :=
  runScalar p l (l.constOf k) (.alu .flagsOnly .copy a 0) s

/-- `- grA;` (R596). -/
def execTestNeg (p : Bool) (l : SLeft) (k : Word) (a : Ix) (s : State) : Result :=
  runScalar p l (l.constOf k) (.alu .flagsOnly .neg a 0) s

/-- `<expr>; (flags-only form of the rows of rules R550 to R561 and R580 to R592)` (R597). -/
def execTestExpr (p : Bool) (l : SLeft) (k : Word) (fn : AluFn) (a : Ix) (b : Ix) (s : State) : Result :=
  runScalar p l (l.constOf k) (.alu .flagsOnly fn a b) s

/-- `true;` (R598). -/
def execFlagsTrue (p : Bool) (l : SLeft) (k : Word) (s : State) : Result :=
  runScalar p l (l.constOf k) (.alu .flagsOnly .tru 0 0) s

/-- `false;` (R599). -/
def execFlagsFalse (p : Bool) (l : SLeft) (k : Word) (s : State) : Result :=
  runScalar p l (l.constOf k) (.alu .flagsOnly .fls 0 0) s

end Sys2Proof.Machine
end

