-- ==== Sys2Proof/Machine/FamilyLoad.lean ====
section
/-! DEFINITION. The meanings of scalar loads (spec/40): one definition per row of the opcode table,
each the execution of the instruction of R264 the row stands for. -/

namespace Sys2Proof.Machine

open Sys2Proof

/-- `dst = [K]` (R340). -/
def execLdConst (p : Bool) (dst : Reg) (k : Word) (r : SRight) (s : State) : Result :=
  runScalar p (.load dst .const) k r s

/-- `dst = [arN]` (R341). -/
def execLdAr (p : Bool) (dst : Reg) (a : Ix) (r : SRight) (s : State) : Result :=
  runScalar p (.load dst (.ar a)) 0 r s

/-- `dst = [grN]` (R342). -/
def execLdGr (p : Bool) (dst : Reg) (a : Ix) (r : SRight) (s : State) : Result :=
  runScalar p (.load dst (.gr a)) 0 r s

/-- `dst = [arN++]` (R343). -/
def execLdArInc (p : Bool) (dst : Reg) (a : Ix) (r : SRight) (s : State) : Result :=
  runScalar p (.load dst (.arInc a)) 0 r s

/-- `dst = [--arN]` (R344). -/
def execLdDecAr (p : Bool) (dst : Reg) (a : Ix) (r : SRight) (s : State) : Result :=
  runScalar p (.load dst (.decAr a)) 0 r s

/-- `dst = [arN++grN]` (R345). -/
def execLdArIncGr (p : Bool) (dst : Reg) (a : Ix) (r : SRight) (s : State) : Result :=
  runScalar p (.load dst (.arIncGr a)) 0 r s

/-- `dst = [arN+=grN]` (R346). -/
def execLdArAddGr (p : Bool) (dst : Reg) (a : Ix) (r : SRight) (s : State) : Result :=
  runScalar p (.load dst (.arAddGr a)) 0 r s

/-- `dst = [arN=grN]` (R347). -/
def execLdArSetGr (p : Bool) (dst : Reg) (a : Ix) (r : SRight) (s : State) : Result :=
  runScalar p (.load dst (.arSetGr a)) 0 r s

/-- `dst = [arN=K]` (R348). -/
def execLdArSetConst (p : Bool) (dst : Reg) (a : Ix) (k : Word) (r : SRight) (s : State) : Result :=
  runScalar p (.load dst (.arSetConst a)) k r s

/-- `dst = [arN+=K] | dst = [arN-=K]` (R349). -/
def execLdArAddConst (p : Bool) (dst : Reg) (a : Ix) (neg : Bool) (k : Word) (r : SRight) (s : State) : Result :=
  runScalar p (.load dst (.addConst neg a)) k r s

/-- `vreg = [mode] (f1cr, f2cr, nb1, sb, vr and halves)` (R350). -/
def execLdVctl (p : Bool) (dst : VCtl) (m : Mode) (k : Word) (r : SRight) (s : State) : Result :=
  runScalar p (.load (.vctl dst) m) (SLeft.constOf (.load (.vctl dst) m) k) r s

end Sys2Proof.Machine
end

