-- ==== Sys2Proof/Machine/FamilyLogic.lean ====
section
/-! DEFINITION. The meanings of scalar logic (spec/43): one definition per row of the opcode table,
each the execution of the instruction of R264 the row stands for. -/

namespace Sys2Proof.Machine

open Sys2Proof

/-- `grD = grA or grB` (R580). -/
def execOrGr (p : Bool) (l : SLeft) (k : Word) (nf : Bool) (d : Ix) (a : Ix) (b : Ix) (s : State) : Result :=
  runScalar p l (l.constOf k) (.alu (.withDst nf d) .or a b) s

/-- `grD = grA and grB` (R581). -/
def execAndGr (p : Bool) (l : SLeft) (k : Word) (nf : Bool) (d : Ix) (a : Ix) (b : Ix) (s : State) : Result :=
  runScalar p l (l.constOf k) (.alu (.withDst nf d) .and a b) s

/-- `grD = grA xor grB` (R582). -/
def execXorGr (p : Bool) (l : SLeft) (k : Word) (nf : Bool) (d : Ix) (a : Ix) (b : Ix) (s : State) : Result :=
  runScalar p l (l.constOf k) (.alu (.withDst nf d) .xor a b) s

/-- `grD = not grA` (R583). -/
def execNotGr (p : Bool) (l : SLeft) (k : Word) (nf : Bool) (d : Ix) (a : Ix) (s : State) : Result :=
  runScalar p l (l.constOf k) (.alu (.withDst nf d) .not a 0) s

/-- `grD = not grA or grB` (R584). -/
def execNotAorB (p : Bool) (l : SLeft) (k : Word) (nf : Bool) (d : Ix) (a : Ix) (b : Ix) (s : State) : Result :=
  runScalar p l (l.constOf k) (.alu (.withDst nf d) .notAorB a b) s

/-- `grD = grA or not grB` (R585). -/
def execAOrNotB (p : Bool) (l : SLeft) (k : Word) (nf : Bool) (d : Ix) (a : Ix) (b : Ix) (s : State) : Result :=
  runScalar p l (l.constOf k) (.alu (.withDst nf d) .AorNotB a b) s

/-- `grD = grA (right-part copy)` (R586). -/
def execCopyGr (p : Bool) (l : SLeft) (k : Word) (nf : Bool) (d : Ix) (a : Ix) (s : State) : Result :=
  runScalar p l (l.constOf k) (.alu (.withDst nf d) .copy a 0) s

/-- `grD = not grA or not grB` (R587). -/
def execNotAorNotB (p : Bool) (l : SLeft) (k : Word) (nf : Bool) (d : Ix) (a : Ix) (b : Ix) (s : State) : Result :=
  runScalar p l (l.constOf k) (.alu (.withDst nf d) .notAorNotB a b) s

/-- `grD = not grA and grB` (R588). -/
def execNotAandB (p : Bool) (l : SLeft) (k : Word) (nf : Bool) (d : Ix) (a : Ix) (b : Ix) (s : State) : Result :=
  runScalar p l (l.constOf k) (.alu (.withDst nf d) .notAandB a b) s

/-- `grD = grA and not grB` (R589). -/
def execAAndNotB (p : Bool) (l : SLeft) (k : Word) (nf : Bool) (d : Ix) (a : Ix) (b : Ix) (s : State) : Result :=
  runScalar p l (l.constOf k) (.alu (.withDst nf d) .AandNotB a b) s

/-- `grD = not grA and not grB` (R590). -/
def execNotAandNotB (p : Bool) (l : SLeft) (k : Word) (nf : Bool) (d : Ix) (a : Ix) (b : Ix) (s : State) : Result :=
  runScalar p l (l.constOf k) (.alu (.withDst nf d) .notAandNotB a b) s

/-- `grD = not grA xor grB` (R591). -/
def execNotAxorB (p : Bool) (l : SLeft) (k : Word) (nf : Bool) (d : Ix) (a : Ix) (b : Ix) (s : State) : Result :=
  runScalar p l (l.constOf k) (.alu (.withDst nf d) .notAxorB a b) s

/-- `grD = grA xor not grB` (R592). -/
def execAXorNotB (p : Bool) (l : SLeft) (k : Word) (nf : Bool) (d : Ix) (a : Ix) (b : Ix) (s : State) : Result :=
  runScalar p l (l.constOf k) (.alu (.withDst nf d) .AxorNotB a b) s

/-- `grD = false` (R593). -/
def execSetFalse (p : Bool) (l : SLeft) (k : Word) (nf : Bool) (d : Ix) (s : State) : Result :=
  runScalar p l (l.constOf k) (.alu (.withDst nf d) .fls 0 0) s

/-- `grD = true` (R594). -/
def execSetTrue (p : Bool) (l : SLeft) (k : Word) (nf : Bool) (d : Ix) (s : State) : Result :=
  runScalar p l (l.constOf k) (.alu (.withDst nf d) .tru 0 0) s

end Sys2Proof.Machine
end

