-- ==== Sys2Proof/Machine/FamilyNul.lean ====
section
/-! DEFINITION. The meanings of no operation in the left part, and the empty right part (spec/40): one definition per row of the opcode table,
each the execution of the instruction of R264 the row stands for. -/

namespace Sys2Proof.Machine

open Sys2Proof

/-- `nul` (R335). -/
def execNul (p : Bool) (r : SRight) (s : State) : Result :=
  runScalar p .nul 0 r s

/-- `nul K` (R336). -/
def execNulK (p : Bool) (k : Word) (r : SRight) (s : State) : Result :=
  runScalar p .nulC k r s

/-- `with nul (right part omitted)` (R337). -/
def execWithNulRight (p : Bool) (l : SLeft) (k : Word) (s : State) : Result :=
  runScalar p l (l.constOf k) .nul s

end Sys2Proof.Machine
end

