-- ==== Sys2Proof/Machine/FamilyPswrMod.lean ====
section
/-! DEFINITION. The meanings of pswr set and pswr clear (spec/41): one definition per row of the opcode table,
each the execution of the instruction of R264 the row stands for. -/

namespace Sys2Proof.Machine

open Sys2Proof

/-- `pswr set K` (R445). -/
def execPswrSet (p : Bool) (k : Word) (r : SRight) (s : State) : Result :=
  runScalar p .pswrSet k r s

/-- `pswr clear K` (R446). -/
def execPswrClear (p : Bool) (k : Word) (r : SRight) (s : State) : Result :=
  runScalar p .pswrClear k r s

end Sys2Proof.Machine
end

