-- ==== Sys2Proof/Machine/FamilySetConst.lean ====
section
/-! DEFINITION. The meanings of constant loads (spec/41): one definition per row of the opcode table,
each the execution of the instruction of R264 the row stands for. -/

namespace Sys2Proof.Machine

open Sys2Proof

/-- `arD = K` (R431). -/
def execSetAr (p : Bool) (d : Ix) (k : Word) (r : SRight) (s : State) : Result :=
  runScalar p (.setConst (.ar d)) k r s

/-- `grD = K` (R432). -/
def execSetGr (p : Bool) (d : Ix) (k : Word) (r : SRight) (s : State) : Result :=
  runScalar p (.setConst (.gr d)) k r s

/-- `arD,grD = K` (R433). -/
def execSetPair (p : Bool) (d : Ix) (k : Word) (r : SRight) (s : State) : Result :=
  runScalar p (.setConst (.pair d)) k r s

/-- `spec = K` (R434). -/
def execSetSpec (p : Bool) (d : Special) (k : Word) (r : SRight) (s : State) : Result :=
  runScalar p (.setConst (.special d)) k r s

/-- `vregh = K` (R435). -/
def execSetVHalf (p : Bool) (d : VHalf) (k : Word) (r : SRight) (s : State) : Result :=
  runScalar p (.setConst (.vctl (.half d))) k r s

/-- `vreg = K` (R436). -/
def execSetVReg (p : Bool) (d : VReg) (k : Word) (r : SRight) (s : State) : Result :=
  runScalar p (.setConst (.vctl (.full d))) k r s

end Sys2Proof.Machine
end

