-- ==== Sys2Proof/Machine/FamilyShift.lean ====
section
/-! DEFINITION. The meanings of shifts and rotates (spec/43): one definition per row of the opcode table,
each the execution of the instruction of R264 the row stands for. -/

namespace Sys2Proof.Machine

open Sys2Proof

/-- `grD = grA << n` (R601). -/
def execShl (p : Bool) (l : SLeft) (k : Word) (d : Ix) (a : Ix) (n : Fin 33) (s : State) : Result :=
  runScalar p l (l.constOf k) (.shift .shl d a n) s

/-- `grD = grA >> n` (R602). -/
def execShr (p : Bool) (l : SLeft) (k : Word) (d : Ix) (a : Ix) (n : Fin 33) (s : State) : Result :=
  runScalar p l (l.constOf k) (.shift .shr d a n) s

/-- `grD = grA A>> n` (R603). -/
def execSar (p : Bool) (l : SLeft) (k : Word) (d : Ix) (a : Ix) (n : Fin 33) (s : State) : Result :=
  runScalar p l (l.constOf k) (.shift .sar d a n) s

/-- `grD = grA R<< n` (R604). -/
def execRol (p : Bool) (l : SLeft) (k : Word) (d : Ix) (a : Ix) (n : Fin 33) (s : State) : Result :=
  runScalar p l (l.constOf k) (.shift .rol d a n) s

/-- `grD = grA R>> n` (R605). -/
def execRor (p : Bool) (l : SLeft) (k : Word) (d : Ix) (a : Ix) (n : Fin 33) (s : State) : Result :=
  runScalar p l (l.constOf k) (.shift .ror d a n) s

/-- `grD = grA C<< 1` (R606). -/
def execRcl (p : Bool) (l : SLeft) (k : Word) (d : Ix) (a : Ix) (s : State) : Result :=
  runScalar p l (l.constOf k) (.shift .rcl d a 1) s

/-- `grD = grA C>> 1` (R607). -/
def execRcr (p : Bool) (l : SLeft) (k : Word) (d : Ix) (a : Ix) (s : State) : Result :=
  runScalar p l (l.constOf k) (.shift .rcr d a 1) s

end Sys2Proof.Machine
end

