-- ==== Sys2Proof/Machine/FamilyStack.lean ====
section
/-! DEFINITION. The meanings of the stack commands (spec/40): one definition per row of the opcode table,
each the execution of the instruction of R264 the row stands for. -/

namespace Sys2Proof.Machine

open Sys2Proof

/-- `push arS` (R381). -/
def execPushAr (p : Bool) (src : Ix) (r : SRight) (s : State) : Result :=
  runScalar p (.push (.ar src)) 0 r s

/-- `push grS` (R382). -/
def execPushGr (p : Bool) (src : Ix) (r : SRight) (s : State) : Result :=
  runScalar p (.push (.gr src)) 0 r s

/-- `push arS,grS` (R383). -/
def execPushPair (p : Bool) (src : Ix) (r : SRight) (s : State) : Result :=
  runScalar p (.push (.pair src)) 0 r s

/-- `pop arD` (R384). -/
def execPopAr (p : Bool) (d : Ix) (r : SRight) (s : State) : Result :=
  runScalar p (.pop (.ar d)) 0 r s

/-- `pop grD` (R385). -/
def execPopGr (p : Bool) (d : Ix) (r : SRight) (s : State) : Result :=
  runScalar p (.pop (.gr d)) 0 r s

/-- `pop arD,grD` (R386). -/
def execPopPair (p : Bool) (d : Ix) (r : SRight) (s : State) : Result :=
  runScalar p (.pop (.pair d)) 0 r s

/-- `pop` (R387). -/
def execPopDrop (p : Bool) (r : SRight) (s : State) : Result :=
  runScalar p .popDrop 0 r s

/-- `push reg | pop reg (other registers of Table 5-1)` (R388). -/
def execStackOther (p : Bool) (isPop : Bool) (reg : Reg) (r : SRight) (s : State) : Result :=
  runScalar p (.stackReg isPop reg) 0 r s

end Sys2Proof.Machine
end

