-- ==== Sys2Proof/Machine/FamilyStore.lean ====
section
/-! DEFINITION. The meanings of scalar stores (spec/40): one definition per row of the opcode table,
each the execution of the instruction of R264 the row stands for. -/

namespace Sys2Proof.Machine

open Sys2Proof

/-- `[K] = src` (R355). -/
def execStConst (p : Bool) (src : Reg) (k : Word) (r : SRight) (s : State) : Result :=
  runScalar p (.store .const src) k r s

/-- `[arN] = src` (R356). -/
def execStAr (p : Bool) (a : Ix) (src : Reg) (r : SRight) (s : State) : Result :=
  runScalar p (.store (.ar a) src) 0 r s

/-- `[grN] = src` (R357). -/
def execStGr (p : Bool) (a : Ix) (src : Reg) (r : SRight) (s : State) : Result :=
  runScalar p (.store (.gr a) src) 0 r s

/-- `[arN++] = src` (R358). -/
def execStArInc (p : Bool) (a : Ix) (src : Reg) (r : SRight) (s : State) : Result :=
  runScalar p (.store (.arInc a) src) 0 r s

/-- `[--arN] = src` (R359). -/
def execStDecAr (p : Bool) (a : Ix) (src : Reg) (r : SRight) (s : State) : Result :=
  runScalar p (.store (.decAr a) src) 0 r s

/-- `[arN++grN] = src` (R360). -/
def execStArIncGr (p : Bool) (a : Ix) (src : Reg) (r : SRight) (s : State) : Result :=
  runScalar p (.store (.arIncGr a) src) 0 r s

/-- `[arN+=grN] = src` (R361). -/
def execStArAddGr (p : Bool) (a : Ix) (src : Reg) (r : SRight) (s : State) : Result :=
  runScalar p (.store (.arAddGr a) src) 0 r s

/-- `[arN=grN] = src` (R362). -/
def execStArSetGr (p : Bool) (a : Ix) (src : Reg) (r : SRight) (s : State) : Result :=
  runScalar p (.store (.arSetGr a) src) 0 r s

/-- `[arN=K] = src` (R363). -/
def execStArSetConst (p : Bool) (a : Ix) (src : Reg) (k : Word) (r : SRight) (s : State) : Result :=
  runScalar p (.store (.arSetConst a) src) k r s

/-- `[arN+=K] = src | [arN-=K] = src` (R364). -/
def execStArAddConst (p : Bool) (a : Ix) (neg : Bool) (src : Reg) (k : Word) (r : SRight) (s : State) : Result :=
  runScalar p (.store (.addConst neg a) src) k r s

end Sys2Proof.Machine
end

