-- ==== Sys2Proof/Machine/FamilyTransfer.lean ====
section
/-! DEFINITION. The meanings of branches, calls and returns (spec/42): one definition per row of the opcode table,
each the execution of the instruction of R264 the row stands for. -/

namespace Sys2Proof.Machine

open Sys2Proof

/-- `goto K` (R480). -/
def execGotoK (p : Bool) (c : Cond) (dl : Bool) (k : Word) (r : SRight) (s : State) : Result :=
  runScalar p (.xfer c dl (.goto .const)) k r s

/-- `goto arS` (R481). -/
def execGotoAr (p : Bool) (c : Cond) (dl : Bool) (src : Ix) (r : SRight) (s : State) : Result :=
  runScalar p (.xfer c dl (.goto (.ar src))) 0 r s

/-- `goto grS` (R482). -/
def execGotoGr (p : Bool) (c : Cond) (dl : Bool) (src : Ix) (r : SRight) (s : State) : Result :=
  runScalar p (.xfer c dl (.goto (.gr src))) 0 r s

/-- `goto arS+grS` (R483). -/
def execGotoArGr (p : Bool) (c : Cond) (dl : Bool) (src : Ix) (r : SRight) (s : State) : Result :=
  runScalar p (.xfer c dl (.goto (.arGr src))) 0 r s

/-- `goto arS+K | goto arS-K` (R484). -/
def execGotoArK (p : Bool) (c : Cond) (dl : Bool) (src : Ix) (neg : Bool) (k : Word) (r : SRight) (s : State) : Result :=
  runScalar p (.xfer c dl (.goto (.arConst neg src))) k r s

/-- `skip K` (R485). -/
def execSkipK (p : Bool) (c : Cond) (dl : Bool) (k : Word) (r : SRight) (s : State) : Result :=
  runScalar p (.xfer c dl (.skip .const)) k r s

/-- `skip grS` (R486). -/
def execSkipGr (p : Bool) (c : Cond) (dl : Bool) (src : Ix) (r : SRight) (s : State) : Result :=
  runScalar p (.xfer c dl (.skip (.gr src))) 0 r s

/-- `call K` (R491). -/
def execCallK (p : Bool) (c : Cond) (dl : Bool) (k : Word) (r : SRight) (s : State) : Result :=
  runScalar p (.xfer c dl (.call .const)) k r s

/-- `call arS` (R492). -/
def execCallAr (p : Bool) (c : Cond) (dl : Bool) (src : Ix) (r : SRight) (s : State) : Result :=
  runScalar p (.xfer c dl (.call (.ar src))) 0 r s

/-- `call grS` (R493). -/
def execCallGr (p : Bool) (c : Cond) (dl : Bool) (src : Ix) (r : SRight) (s : State) : Result :=
  runScalar p (.xfer c dl (.call (.gr src))) 0 r s

/-- `call arS+grS` (R494). -/
def execCallArGr (p : Bool) (c : Cond) (dl : Bool) (src : Ix) (r : SRight) (s : State) : Result :=
  runScalar p (.xfer c dl (.call (.arGr src))) 0 r s

/-- `call arS+K | call arS-K` (R495). -/
def execCallArK (p : Bool) (c : Cond) (dl : Bool) (src : Ix) (neg : Bool) (k : Word) (r : SRight) (s : State) : Result :=
  runScalar p (.xfer c dl (.call (.arConst neg src))) k r s

/-- `callrel K` (R496). -/
def execCallrelK (p : Bool) (c : Cond) (dl : Bool) (k : Word) (r : SRight) (s : State) : Result :=
  runScalar p (.xfer c dl (.callrel .const)) k r s

/-- `callrel grS` (R497). -/
def execCallrelGr (p : Bool) (c : Cond) (dl : Bool) (src : Ix) (r : SRight) (s : State) : Result :=
  runScalar p (.xfer c dl (.callrel (.gr src))) 0 r s

/-- `return` (R510). -/
def execRet (p : Bool) (c : Cond) (dl : Bool) (r : SRight) (s : State) : Result :=
  runScalar p (.xfer c dl .ret) 0 r s

/-- `ireturn` (R512). -/
def execIret (p : Bool) (c : Cond) (dl : Bool) (r : SRight) (s : State) : Result :=
  runScalar p (.xfer c dl .iret) 0 r s

end Sys2Proof.Machine
end

