-- ==== Sys2Proof/Machine/FamilyVActivate.lean ====
section
/-! DEFINITION. The meanings of activation (spec/45): one definition per row of the opcode table,
each the execution of the instruction of R264 the row stands for. -/

namespace Sys2Proof.Machine

open Sys2Proof

/-- `with activate X or Y` (R771). -/
def execVActXOr (p : Bool) (n : Rep) (l : VLeft) (x : VSrc) (y : VSrc) (s : State) : Result :=
  runVector p n l (.logic .or false false ⟨true, x⟩ ⟨false, y⟩) s

/-- `with not activate X and Y` (R772). -/
def execVNotActXAnd (p : Bool) (n : Rep) (l : VLeft) (x : VSrc) (y : VSrc) (s : State) : Result :=
  runVector p n l (.logic .and true false ⟨true, x⟩ ⟨false, y⟩) s

/-- `with X or activate Y` (R773). -/
def execVOrActY (p : Bool) (n : Rep) (l : VLeft) (x : VSrc) (y : VSrc) (s : State) : Result :=
  runVector p n l (.logic .or false false ⟨false, x⟩ ⟨true, y⟩) s

/-- `with X and not activate Y` (R774). -/
def execVAndNotActY (p : Bool) (n : Rep) (l : VLeft) (x : VSrc) (y : VSrc) (s : State) : Result :=
  runVector p n l (.logic .and false true ⟨false, x⟩ ⟨true, y⟩) s

/-- `with activate X xor activate Y` (R775). -/
def execVActXXorActY (p : Bool) (n : Rep) (l : VLeft) (x : VSrc) (y : VSrc) (s : State) : Result :=
  runVector p n l (.logic .xor false false ⟨true, x⟩ ⟨true, y⟩) s

/-- `with not activate X and not activate Y` (R776). -/
def execVNotActXAndNotActY (p : Bool) (n : Rep) (l : VLeft) (x : VSrc) (y : VSrc) (s : State) : Result :=
  runVector p n l (.logic .and true true ⟨true, x⟩ ⟨true, y⟩) s

/-- `with mask M, activate X, Y` (R777). -/
def execVMaskActX (p : Bool) (n : Rep) (l : VLeft) (m : Buf) (x : VSrc) (y : VSrc) (s : State) : Result :=
  runVector p n l (.mask m false ⟨true, x⟩ ⟨false, y⟩) s

/-- `with mask M, X, activate Y` (R778). -/
def execVMaskActY (p : Bool) (n : Rep) (l : VLeft) (m : Buf) (x : VSrc) (y : VSrc) (s : State) : Result :=
  runVector p n l (.mask m false ⟨false, x⟩ ⟨true, y⟩) s

/-- `with mask M, activate X, activate Y` (R779). -/
def execVMaskActXY (p : Bool) (n : Rep) (l : VLeft) (m : Buf) (x : VSrc) (y : VSrc) (s : State) : Result :=
  runVector p n l (.mask m false ⟨true, x⟩ ⟨true, y⟩) s

/-- `with mask M, shift activate X, Y` (R780). -/
def execVMaskShiftActX (p : Bool) (n : Rep) (l : VLeft) (m : Buf) (x : VSrc) (y : VSrc) (s : State) : Result :=
  runVector p n l (.mask m true ⟨true, x⟩ ⟨false, y⟩) s

/-- `with activate X + Y` (R781). -/
def execVActXAdd (p : Bool) (n : Rep) (l : VLeft) (x : VSrc) (y : VSrc) (s : State) : Result :=
  runVector p n l (.arith false ⟨true, x⟩ ⟨false, y⟩) s

/-- `with X - activate Y` (R782). -/
def execVSubActY (p : Bool) (n : Rep) (l : VLeft) (x : VSrc) (y : VSrc) (s : State) : Result :=
  runVector p n l (.arith true ⟨false, x⟩ ⟨true, y⟩) s

/-- `with activate X + activate Y` (R783). -/
def execVActXAddActY (p : Bool) (n : Rep) (l : VLeft) (x : VSrc) (y : VSrc) (s : State) : Result :=
  runVector p n l (.arith false ⟨true, x⟩ ⟨true, y⟩) s

/-- `with vsum , activate X, Y` (R784). -/
def execVSumActX (p : Bool) (n : Rep) (l : VLeft) (x : VSrc) (y : VSrc) (s : State) : Result :=
  runVector p n l (.vsum none false ⟨true, x⟩ ⟨false, y⟩) s

/-- `with vsum , X, activate Y` (R785). -/
def execVSumActY (p : Bool) (n : Rep) (l : VLeft) (x : VSrc) (y : VSrc) (s : State) : Result :=
  runVector p n l (.vsum none false ⟨false, x⟩ ⟨true, y⟩) s

/-- `with vsum M, activate X, activate Y` (R786). -/
def execVSumMaskActXY (p : Bool) (n : Rep) (l : VLeft) (m : Buf) (x : VSrc) (y : VSrc) (s : State) : Result :=
  runVector p n l (.vsum (some m) false ⟨true, x⟩ ⟨true, y⟩) s

/-- `with vsum , shift activate X, 0` (R787). -/
def execVSumShiftActX (p : Bool) (n : Rep) (l : VLeft) (x : VSrc) (s : State) : Result :=
  runVector p n l (.vsum none true ⟨true, x⟩ ⟨false, .null⟩) s

/-- `with <any operation of rules R720 to R764 with activate before a buffer operand>` (R788). -/
def execVAnyActivated (p : Bool) (n : Rep) (l : VLeft) (r : VRight) (s : State) : Result :=
  runVector p n l r s

end Sys2Proof.Machine
end

