-- ==== Sys2Proof/Machine/FamilyVArith.lean ====
section
/-! DEFINITION. The meanings of vector arithmetic (spec/45): one definition per row of the opcode table,
each the execution of the instruction of R264 the row stands for. -/

namespace Sys2Proof.Machine

open Sys2Proof

/-- `with X + Y` (R735). -/
def execVAdd (p : Bool) (n : Rep) (l : VLeft) (x : VSrc) (y : VSrc) (s : State) : Result :=
  runVector p n l (.arith false ⟨false, x⟩ ⟨false, y⟩) s

/-- `with X - Y` (R736). -/
def execVSub (p : Bool) (n : Rep) (l : VLeft) (x : VSrc) (y : VSrc) (s : State) : Result :=
  runVector p n l (.arith true ⟨false, x⟩ ⟨false, y⟩) s

/-- `with 0 - Y` (R737). -/
def execVNegY (p : Bool) (n : Rep) (l : VLeft) (y : VSrc) (s : State) : Result :=
  runVector p n l (.arith true ⟨false, .null⟩ ⟨false, y⟩) s

/-- `with X + 1` (R738). -/
def execVInc (p : Bool) (n : Rep) (l : VLeft) (x : VSrc) (s : State) : Result :=
  runVector p n l (.arith false ⟨false, x⟩ ⟨false, .one⟩) s

/-- `with 0 + 1` (R739). -/
def execVOne (p : Bool) (n : Rep) (l : VLeft) (s : State) : Result :=
  runVector p n l (.arith false ⟨false, .null⟩ ⟨false, .one⟩) s

/-- `with X - 1` (R740). -/
def execVDec (p : Bool) (n : Rep) (l : VLeft) (x : VSrc) (s : State) : Result :=
  runVector p n l (.arith true ⟨false, x⟩ ⟨false, .one⟩) s

/-- `with 0 - 1` (R741). -/
def execVMinusOne (p : Bool) (n : Rep) (l : VLeft) (s : State) : Result :=
  runVector p n l (.arith true ⟨false, .null⟩ ⟨false, .one⟩) s

end Sys2Proof.Machine
end

