-- ==== Sys2Proof/Machine/FamilyVLoad.lean ====
section
/-! DEFINITION. The meanings of vector loads (spec/44): one definition per row of the opcode table,
each the execution of the instruction of R264 the row stands for. -/

namespace Sys2Proof.Machine

open Sys2Proof

/-- `rep n data = [mode]` (R640). -/
def execVLdData (p : Bool) (n : Rep) (m : VMode) (f : Bool) (w : Bool) (r : VRight) (s : State) : Result :=
  runVector p n ⟨.load .data m, f, w⟩ r s

/-- `rep n ram = [mode]` (R641). -/
def execVLdRam (p : Bool) (n : Rep) (m : VMode) (f : Bool) (w : Bool) (r : VRight) (s : State) : Result :=
  runVector p n ⟨.load .ram m, f, w⟩ r s

/-- `rep n wfifo = [mode]` (R642). -/
def execVLdWfifo (p : Bool) (n : Rep) (m : VMode) (f : Bool) (w : Bool) (r : VRight) (s : State) : Result :=
  runVector p n ⟨.load .wfifo m, f, w⟩ r s

/-- `rep n buf = [arN]` (R645). -/
def execVLdAr (p : Bool) (n : Rep) (b : LBuf) (a : Ix) (f : Bool) (w : Bool) (r : VRight) (s : State) : Result :=
  runVector p n ⟨.load b (.ar a), f, w⟩ r s

/-- `rep n buf = [grN]` (R646). -/
def execVLdGr (p : Bool) (n : Rep) (b : LBuf) (a : Ix) (f : Bool) (w : Bool) (r : VRight) (s : State) : Result :=
  runVector p n ⟨.load b (.gr a), f, w⟩ r s

/-- `rep n buf = [arN=grN]` (R647). -/
def execVLdArSetGr (p : Bool) (n : Rep) (b : LBuf) (a : Ix) (f : Bool) (w : Bool) (r : VRight) (s : State) : Result :=
  runVector p n ⟨.load b (.arSetGr a), f, w⟩ r s

/-- `rep n buf = [arN++]` (R648). -/
def execVLdArInc (p : Bool) (n : Rep) (b : LBuf) (a : Ix) (f : Bool) (w : Bool) (r : VRight) (s : State) : Result :=
  runVector p n ⟨.load b (.arInc a), f, w⟩ r s

/-- `rep n buf = [--arN]` (R649). -/
def execVLdDecAr (p : Bool) (n : Rep) (b : LBuf) (a : Ix) (f : Bool) (w : Bool) (r : VRight) (s : State) : Result :=
  runVector p n ⟨.load b (.decAr a), f, w⟩ r s

/-- `rep n buf = [arN++grN]` (R650). -/
def execVLdArIncGr (p : Bool) (n : Rep) (b : LBuf) (a : Ix) (f : Bool) (w : Bool) (r : VRight) (s : State) : Result :=
  runVector p n ⟨.load b (.arIncGr a), f, w⟩ r s

/-- `rep n buf = [arN+=grN]` (R651). -/
def execVLdArAddGr (p : Bool) (n : Rep) (b : LBuf) (a : Ix) (f : Bool) (w : Bool) (r : VRight) (s : State) : Result :=
  runVector p n ⟨.load b (.arAddGr a), f, w⟩ r s

end Sys2Proof.Machine
end

