-- ==== Sys2Proof/Machine/FamilyVLogic.lean ====
section
/-! DEFINITION. The meanings of vector logic (spec/45): one definition per row of the opcode table,
each the execution of the instruction of R264 the row stands for. -/

namespace Sys2Proof.Machine

open Sys2Proof

/-- `with X or Y` (R720). -/
def execVOr (p : Bool) (n : Rep) (l : VLeft) (x : VSrc) (y : VSrc) (s : State) : Result :=
  runVector p n l (.logic .or false false ⟨false, x⟩ ⟨false, y⟩) s

/-- `with X and Y` (R721). -/
def execVAnd (p : Bool) (n : Rep) (l : VLeft) (x : VSrc) (y : VSrc) (s : State) : Result :=
  runVector p n l (.logic .and false false ⟨false, x⟩ ⟨false, y⟩) s

/-- `with X xor Y` (R722). -/
def execVXor (p : Bool) (n : Rep) (l : VLeft) (x : VSrc) (y : VSrc) (s : State) : Result :=
  runVector p n l (.logic .xor false false ⟨false, x⟩ ⟨false, y⟩) s

/-- `with not X` (R723). -/
def execVNot (p : Bool) (n : Rep) (l : VLeft) (x : VSrc) (s : State) : Result :=
  runVector p n l (.logic .or true false ⟨false, x⟩ ⟨false, .null⟩) s

/-- `with not X or Y` (R724). -/
def execVNotOr (p : Bool) (n : Rep) (l : VLeft) (x : VSrc) (y : VSrc) (s : State) : Result :=
  runVector p n l (.logic .or true false ⟨false, x⟩ ⟨false, y⟩) s

/-- `with X or not Y` (R725). -/
def execVOrNot (p : Bool) (n : Rep) (l : VLeft) (x : VSrc) (y : VSrc) (s : State) : Result :=
  runVector p n l (.logic .or false true ⟨false, x⟩ ⟨false, y⟩) s

/-- `with not X or not Y` (R726). -/
def execVNotOrNot (p : Bool) (n : Rep) (l : VLeft) (x : VSrc) (y : VSrc) (s : State) : Result :=
  runVector p n l (.logic .or true true ⟨false, x⟩ ⟨false, y⟩) s

/-- `with not X and Y` (R727). -/
def execVNotAnd (p : Bool) (n : Rep) (l : VLeft) (x : VSrc) (y : VSrc) (s : State) : Result :=
  runVector p n l (.logic .and true false ⟨false, x⟩ ⟨false, y⟩) s

/-- `with X and not Y` (R728). -/
def execVAndNot (p : Bool) (n : Rep) (l : VLeft) (x : VSrc) (y : VSrc) (s : State) : Result :=
  runVector p n l (.logic .and false true ⟨false, x⟩ ⟨false, y⟩) s

/-- `with not X and not Y` (R729). -/
def execVNotAndNot (p : Bool) (n : Rep) (l : VLeft) (x : VSrc) (y : VSrc) (s : State) : Result :=
  runVector p n l (.logic .and true true ⟨false, x⟩ ⟨false, y⟩) s

/-- `with not X xor Y` (R730). -/
def execVNotXor (p : Bool) (n : Rep) (l : VLeft) (x : VSrc) (y : VSrc) (s : State) : Result :=
  runVector p n l (.logic .xor true false ⟨false, x⟩ ⟨false, y⟩) s

/-- `with vfalse` (R731). -/
def execVFalse (p : Bool) (n : Rep) (l : VLeft) (s : State) : Result :=
  runVector p n l (.fill false) s

/-- `with vtrue` (R732). -/
def execVTrue (p : Bool) (n : Rep) (l : VLeft) (s : State) : Result :=
  runVector p n l (.fill true) s

end Sys2Proof.Machine
end

