-- ==== Sys2Proof/Machine/FamilyVMask.lean ====
section
/-! DEFINITION. The meanings of mask application (spec/45): one definition per row of the opcode table,
each the execution of the instruction of R264 the row stands for. -/

namespace Sys2Proof.Machine

open Sys2Proof

/-- `with mask M, X, Y` (R750). -/
def execVMask (p : Bool) (n : Rep) (l : VLeft) (m : Buf) (x : VSrc) (y : VSrc) (s : State) : Result :=
  runVector p n l (.mask m false ⟨false, x⟩ ⟨false, y⟩) s

/-- `with mask M, shift X, Y` (R751). -/
def execVMaskShift (p : Bool) (n : Rep) (l : VLeft) (m : Buf) (x : VSrc) (y : VSrc) (s : State) : Result :=
  runVector p n l (.mask m true ⟨false, x⟩ ⟨false, y⟩) s

end Sys2Proof.Machine
end

