-- ==== Sys2Proof/Machine/FamilyVNone.lean ====
section
/-! DEFINITION. The meanings of absent parts and vnul (spec/44): one definition per row of the opcode table,
each the execution of the instruction of R264 the row stands for. -/

namespace Sys2Proof.Machine

open Sys2Proof

/-- `rep n with <right part> (left part absent)` (R670). -/
def execVNoLeft (p : Bool) (n : Rep) (r : VRight) (s : State) : Result :=
  runVector p n ⟨.none, false, false⟩ r s

/-- `vnul` (R690). -/
def execVnul (p : Bool) (s : State) : Result :=
  runBare p .vnul s

/-- `(vector right part omitted)` (R705). -/
def execVNoRight (p : Bool) (n : Rep) (l : VLeft) (s : State) : Result :=
  runVector p n l .none s

end Sys2Proof.Machine
end

