-- ==== Sys2Proof/Machine/FamilyVStore.lean ====
section
/-! DEFINITION. The meanings of vector stores (spec/44): one definition per row of the opcode table,
each the execution of the instruction of R264 the row stands for. -/

namespace Sys2Proof.Machine

open Sys2Proof

/-- `rep n [mode] = afifo` (R655). -/
def execVSt (p : Bool) (n : Rep) (m : VMode) (f : Bool) (w : Bool) (r : VRight) (s : State) : Result :=
  runVector p n ⟨.store m false, f, w⟩ r s

/-- `rep n [mode], ram = afifo` (R656). -/
def execVStRam (p : Bool) (n : Rep) (m : VMode) (f : Bool) (w : Bool) (r : VRight) (s : State) : Result :=
  runVector p n ⟨.store m true, f, w⟩ r s

/-- `rep n [arN] = afifo` (R660). -/
def execVStAr (p : Bool) (n : Rep) (a : Ix) (f : Bool) (w : Bool) (r : VRight) (s : State) : Result :=
  runVector p n ⟨.store (.ar a) false, f, w⟩ r s

/-- `rep n [grN] = afifo` (R661). -/
def execVStGr (p : Bool) (n : Rep) (a : Ix) (f : Bool) (w : Bool) (r : VRight) (s : State) : Result :=
  runVector p n ⟨.store (.gr a) false, f, w⟩ r s

/-- `rep n [arN=grN] = afifo` (R662). -/
def execVStArSetGr (p : Bool) (n : Rep) (a : Ix) (f : Bool) (w : Bool) (r : VRight) (s : State) : Result :=
  runVector p n ⟨.store (.arSetGr a) false, f, w⟩ r s

/-- `rep n [arN++] = afifo` (R663). -/
def execVStArInc (p : Bool) (n : Rep) (a : Ix) (f : Bool) (w : Bool) (r : VRight) (s : State) : Result :=
  runVector p n ⟨.store (.arInc a) false, f, w⟩ r s

/-- `rep n [--arN] = afifo` (R664). -/
def execVStDecAr (p : Bool) (n : Rep) (a : Ix) (f : Bool) (w : Bool) (r : VRight) (s : State) : Result :=
  runVector p n ⟨.store (.decAr a) false, f, w⟩ r s

/-- `rep n [arN++grN] = afifo` (R665). -/
def execVStArIncGr (p : Bool) (n : Rep) (a : Ix) (f : Bool) (w : Bool) (r : VRight) (s : State) : Result :=
  runVector p n ⟨.store (.arIncGr a) false, f, w⟩ r s

/-- `rep n [arN+=grN] = afifo` (R666). -/
def execVStArAddGr (p : Bool) (n : Rep) (a : Ix) (f : Bool) (w : Bool) (r : VRight) (s : State) : Result :=
  runVector p n ⟨.store (.arAddGr a) false, f, w⟩ r s

/-- `rep n [arN++], ram = afifo (store with copy to ram, any mode)` (R667). -/
def execVStRamCopy (p : Bool) (n : Rep) (m : VMode) (f : Bool) (w : Bool) (r : VRight) (s : State) : Result :=
  runVector p n ⟨.store m true, f, w⟩ r s

end Sys2Proof.Machine
end

