-- ==== Sys2Proof/Machine/FamilyVStoreRegs.lean ====
section
/-! DEFINITION. The meanings of store vregs (spec/45): one definition per row of the opcode table,
each the execution of the instruction of R264 the row stands for. -/

namespace Sys2Proof.Machine

open Sys2Proof

/-- `rep 5 with store vregs` (R790). -/
def execStoreVregs (p : Bool) (n : Rep) (l : VLeft) (s : State) : Result :=
  runVector p n l .storeRegs s

end Sys2Proof.Machine
end

