-- ==== Sys2Proof/Machine/FamilyVSum.lean ====
section
/-! DEFINITION. The meanings of weighted accumulation (spec/45): one definition per row of the opcode table,
each the execution of the instruction of R264 the row stands for. -/

namespace Sys2Proof.Machine

open Sys2Proof

/-- `with vsum , X, 0` (R761). -/
def execVSum0 (p : Bool) (n : Rep) (l : VLeft) (x : VSrc) (s : State) : Result :=
  runVector p n l (.vsum none false ⟨false, x⟩ ⟨false, .null⟩) s

/-- `with vsum , X, Y` (R762). -/
def execVSumY (p : Bool) (n : Rep) (l : VLeft) (x : VSrc) (y : VSrc) (s : State) : Result :=
  runVector p n l (.vsum none false ⟨false, x⟩ ⟨false, y⟩) s

/-- `with vsum M, X, Y` (R763). -/
def execVSumMask (p : Bool) (n : Rep) (l : VLeft) (m : Buf) (x : VSrc) (y : VSrc) (s : State) : Result :=
  runVector p n l (.vsum (some m) false ⟨false, x⟩ ⟨false, y⟩) s

/-- `with vsum , shift X, Y` (R764). -/
def execVSumShift (p : Bool) (n : Rep) (l : VLeft) (m : Option Buf) (x : VSrc) (y : VSrc) (s : State) : Result :=
  runVector p n l (.vsum m true ⟨false, x⟩ ⟨false, y⟩) s

end Sys2Proof.Machine
end

