-- ==== Sys2Proof/Machine/FamilyVWeights.lean ====
section
/-! DEFINITION. The meanings of weights loading, ftw and wtw (spec/44): one definition per row of the opcode table,
each the execution of the instruction of R264 the row stands for. -/

namespace Sys2Proof.Machine

open Sys2Proof

/-- `rep n wfifo = [mode]` (R675). -/
def execWfifoLd (p : Bool) (n : Rep) (m : VMode) (r : VRight) (s : State) : Result :=
  runVector p n ⟨.load .wfifo m, false, false⟩ r s

/-- `rep n wfifo = [mode], ftw` (R676). -/
def execWfifoLdFtw (p : Bool) (n : Rep) (m : VMode) (r : VRight) (s : State) : Result :=
  runVector p n ⟨.load .wfifo m, true, false⟩ r s

/-- `rep n wfifo = [mode], ftw, wtw` (R677). -/
def execWfifoLdFtwWtw (p : Bool) (n : Rep) (m : VMode) (r : VRight) (s : State) : Result :=
  runVector p n ⟨.load .wfifo m, true, true⟩ r s

/-- `ftw` (R680). -/
def execFtw (p : Bool) (s : State) : Result :=
  runBare p .ftw s

/-- `rep n ftw with <right part>` (R681). -/
def execFtwWith (p : Bool) (n : Rep) (w : Bool) (r : VRight) (s : State) : Result :=
  runVector p n ⟨.none, true, w⟩ r s

/-- `wtw` (R685). -/
def execWtw (p : Bool) (o : Option (Rep × VRight)) (s : State) : Result :=
  match o with
  | none => runBare p .wtw s
  | some (n, r) => runVector p n ⟨.none, false, true⟩ r s

/-- `ftw, wtw` (R687). -/
def execFtwWtw (p : Bool) (s : State) : Result :=
  runBare p .ftwWtw s

end Sys2Proof.Machine
end

