-- ==== Sys2Proof/Machine/Dispatch.lean ====
section
/-! DEFINITION. The dispatch: one arm per constructor of Instr, each one call of its meaning. -/

namespace Sys2Proof.Machine

open Sys2Proof

def exec (i : Instr) (s : State) : Host.Outcome State Fault Refusal :=
  match i with
  | .nul p r => Sys2Proof.Machine.execNul p r s
  | .nulK p k r => Sys2Proof.Machine.execNulK p k r s
  | .withNulRight p l k => Sys2Proof.Machine.execWithNulRight p l k s
  | .ldConst p dst k r => Sys2Proof.Machine.execLdConst p dst k r s
  | .ldAr p dst a r => Sys2Proof.Machine.execLdAr p dst a r s
  | .ldGr p dst a r => Sys2Proof.Machine.execLdGr p dst a r s
  | .ldArInc p dst a r => Sys2Proof.Machine.execLdArInc p dst a r s
  | .ldDecAr p dst a r => Sys2Proof.Machine.execLdDecAr p dst a r s
  | .ldArIncGr p dst a r => Sys2Proof.Machine.execLdArIncGr p dst a r s
  | .ldArAddGr p dst a r => Sys2Proof.Machine.execLdArAddGr p dst a r s
  | .ldArSetGr p dst a r => Sys2Proof.Machine.execLdArSetGr p dst a r s
  | .ldArSetConst p dst a k r => Sys2Proof.Machine.execLdArSetConst p dst a k r s
  | .ldArAddConst p dst a neg k r => Sys2Proof.Machine.execLdArAddConst p dst a neg k r s
  | .ldVctl p dst m k r => Sys2Proof.Machine.execLdVctl p dst m k r s
  | .stConst p src k r => Sys2Proof.Machine.execStConst p src k r s
  | .stAr p a src r => Sys2Proof.Machine.execStAr p a src r s
  | .stGr p a src r => Sys2Proof.Machine.execStGr p a src r s
  | .stArInc p a src r => Sys2Proof.Machine.execStArInc p a src r s
  | .stDecAr p a src r => Sys2Proof.Machine.execStDecAr p a src r s
  | .stArIncGr p a src r => Sys2Proof.Machine.execStArIncGr p a src r s
  | .stArAddGr p a src r => Sys2Proof.Machine.execStArAddGr p a src r s
  | .stArSetGr p a src r => Sys2Proof.Machine.execStArSetGr p a src r s
  | .stArSetConst p a src k r => Sys2Proof.Machine.execStArSetConst p a src k r s
  | .stArAddConst p a neg src k r => Sys2Proof.Machine.execStArAddConst p a neg src k r s
  | .pushAr p src r => Sys2Proof.Machine.execPushAr p src r s
  | .pushGr p src r => Sys2Proof.Machine.execPushGr p src r s
  | .pushPair p src r => Sys2Proof.Machine.execPushPair p src r s
  | .popAr p d r => Sys2Proof.Machine.execPopAr p d r s
  | .popGr p d r => Sys2Proof.Machine.execPopGr p d r s
  | .popPair p d r => Sys2Proof.Machine.execPopPair p d r s
  | .popDrop p r => Sys2Proof.Machine.execPopDrop p r s
  | .stackOther p isPop reg r => Sys2Proof.Machine.execStackOther p isPop reg r s
  | .cpArAr p d src r => Sys2Proof.Machine.execCpArAr p d src r s
  | .cpGrAr p d src r => Sys2Proof.Machine.execCpGrAr p d src r s
  | .cpArGr p d src r => Sys2Proof.Machine.execCpArGr p d src r s
  | .cpGrGr p d src r => Sys2Proof.Machine.execCpGrGr p d src r s
  | .cpPairPair p d src r => Sys2Proof.Machine.execCpPairPair p d src r s
  | .cpPairAr p d src r => Sys2Proof.Machine.execCpPairAr p d src r s
  | .cpPairGr p d src r => Sys2Proof.Machine.execCpPairGr p d src r s
  | .cpVHalfAr p d src r => Sys2Proof.Machine.execCpVHalfAr p d src r s
  | .cpVHalfGr p d src r => Sys2Proof.Machine.execCpVHalfGr p d src r s
  | .cpVRegAr p d src r => Sys2Proof.Machine.execCpVRegAr p d src r s
  | .cpVRegGr p d src r => Sys2Proof.Machine.execCpVRegGr p d src r s
  | .cpVRegPair p d src r => Sys2Proof.Machine.execCpVRegPair p d src r s
  | .cpArSpec p d src r => Sys2Proof.Machine.execCpArSpec p d src r s
  | .cpGrSpec p d src r => Sys2Proof.Machine.execCpGrSpec p d src r s
  | .cpPairSpec p d src r => Sys2Proof.Machine.execCpPairSpec p d src r s
  | .cpSpecPrim p d src r => Sys2Proof.Machine.execCpSpecPrim p d src r s
  | .cpOther p d src r => Sys2Proof.Machine.execCpOther p d src r s
  | .setAr p d k r => Sys2Proof.Machine.execSetAr p d k r s
  | .setGr p d k r => Sys2Proof.Machine.execSetGr p d k r s
  | .setPair p d k r => Sys2Proof.Machine.execSetPair p d k r s
  | .setSpec p d k r => Sys2Proof.Machine.execSetSpec p d k r s
  | .setVHalf p d k r => Sys2Proof.Machine.execSetVHalf p d k r s
  | .setVReg p d k r => Sys2Proof.Machine.execSetVReg p d k r s
  | .amMovAr p d src r => Sys2Proof.Machine.execAmMovAr p d src r s
  | .amMovGr p d src r => Sys2Proof.Machine.execAmMovGr p d src r s
  | .amAddGr p d src r => Sys2Proof.Machine.execAmAddGr p d src r s
  | .amAddConst p d src neg k r => Sys2Proof.Machine.execAmAddConst p d src neg k r s
  | .amSetConst p d k r => Sys2Proof.Machine.execAmSetConst p d k r s
  | .amInc p d r => Sys2Proof.Machine.execAmInc p d r s
  | .amDec p d r => Sys2Proof.Machine.execAmDec p d r s
  | .amIncGr p d neg r => Sys2Proof.Machine.execAmIncGr p d neg r s
  | .amIncConst p d k r => Sys2Proof.Machine.execAmIncConst p d k r s
  | .amDecConst p d k r => Sys2Proof.Machine.execAmDecConst p d k r s
  | .pswrSet p k r => Sys2Proof.Machine.execPswrSet p k r s
  | .pswrClear p k r => Sys2Proof.Machine.execPswrClear p k r s
  | .gotoK p c dl k r => Sys2Proof.Machine.execGotoK p c dl k r s
  | .gotoAr p c dl src r => Sys2Proof.Machine.execGotoAr p c dl src r s
  | .gotoGr p c dl src r => Sys2Proof.Machine.execGotoGr p c dl src r s
  | .gotoArGr p c dl src r => Sys2Proof.Machine.execGotoArGr p c dl src r s
  | .gotoArK p c dl src neg k r => Sys2Proof.Machine.execGotoArK p c dl src neg k r s
  | .skipK p c dl k r => Sys2Proof.Machine.execSkipK p c dl k r s
  | .skipGr p c dl src r => Sys2Proof.Machine.execSkipGr p c dl src r s
  | .callK p c dl k r => Sys2Proof.Machine.execCallK p c dl k r s
  | .callAr p c dl src r => Sys2Proof.Machine.execCallAr p c dl src r s
  | .callGr p c dl src r => Sys2Proof.Machine.execCallGr p c dl src r s
  | .callArGr p c dl src r => Sys2Proof.Machine.execCallArGr p c dl src r s
  | .callArK p c dl src neg k r => Sys2Proof.Machine.execCallArK p c dl src neg k r s
  | .callrelK p c dl k r => Sys2Proof.Machine.execCallrelK p c dl k r s
  | .callrelGr p c dl src r => Sys2Proof.Machine.execCallrelGr p c dl src r s
  | .ret p c dl r => Sys2Proof.Machine.execRet p c dl r s
  | .iret p c dl r => Sys2Proof.Machine.execIret p c dl r s
  | .add p l k nf d a b => Sys2Proof.Machine.execAdd p l k nf d a b s
  | .addTo p l k nf d b => Sys2Proof.Machine.execAddTo p l k nf d b s
  | .inc p l k nf d a => Sys2Proof.Machine.execInc p l k nf d a s
  | .incSelf p l k nf d => Sys2Proof.Machine.execIncSelf p l k nf d s
  | .sub p l k nf d a b => Sys2Proof.Machine.execSub p l k nf d a b s
  | .subFrom p l k nf d b => Sys2Proof.Machine.execSubFrom p l k nf d b s
  | .dec p l k nf d a => Sys2Proof.Machine.execDec p l k nf d a s
  | .decSelf p l k nf d => Sys2Proof.Machine.execDecSelf p l k nf d s
  | .addC p l k nf d a => Sys2Proof.Machine.execAddC p l k nf d a s
  | .addBC p l k nf d a b => Sys2Proof.Machine.execAddBC p l k nf d a b s
  | .subC p l k nf d a => Sys2Proof.Machine.execSubC p l k nf d a s
  | .subBC p l k nf d a b => Sys2Proof.Machine.execSubBC p l k nf d a b s
  | .negGr p l k nf d a => Sys2Proof.Machine.execNegGr p l k nf d a s
  | .mulFirst p l k nf d a => Sys2Proof.Machine.execMulFirst p l k nf d a s
  | .mulNext p l k nf d a => Sys2Proof.Machine.execMulNext p l k nf d a s
  | .addFlags p l k a b => Sys2Proof.Machine.execAddFlags p l k a b s
  | .orGr p l k nf d a b => Sys2Proof.Machine.execOrGr p l k nf d a b s
  | .andGr p l k nf d a b => Sys2Proof.Machine.execAndGr p l k nf d a b s
  | .xorGr p l k nf d a b => Sys2Proof.Machine.execXorGr p l k nf d a b s
  | .notGr p l k nf d a => Sys2Proof.Machine.execNotGr p l k nf d a s
  | .notAorB p l k nf d a b => Sys2Proof.Machine.execNotAorB p l k nf d a b s
  | .aOrNotB p l k nf d a b => Sys2Proof.Machine.execAOrNotB p l k nf d a b s
  | .copyGr p l k nf d a => Sys2Proof.Machine.execCopyGr p l k nf d a s
  | .notAorNotB p l k nf d a b => Sys2Proof.Machine.execNotAorNotB p l k nf d a b s
  | .notAandB p l k nf d a b => Sys2Proof.Machine.execNotAandB p l k nf d a b s
  | .aAndNotB p l k nf d a b => Sys2Proof.Machine.execAAndNotB p l k nf d a b s
  | .notAandNotB p l k nf d a b => Sys2Proof.Machine.execNotAandNotB p l k nf d a b s
  | .notAxorB p l k nf d a b => Sys2Proof.Machine.execNotAxorB p l k nf d a b s
  | .aXorNotB p l k nf d a b => Sys2Proof.Machine.execAXorNotB p l k nf d a b s
  | .setFalse p l k nf d => Sys2Proof.Machine.execSetFalse p l k nf d s
  | .setTrue p l k nf d => Sys2Proof.Machine.execSetTrue p l k nf d s
  | .testGr p l k a => Sys2Proof.Machine.execTestGr p l k a s
  | .testNeg p l k a => Sys2Proof.Machine.execTestNeg p l k a s
  | .testExpr p l k fn a b => Sys2Proof.Machine.execTestExpr p l k fn a b s
  | .flagsTrue p l k => Sys2Proof.Machine.execFlagsTrue p l k s
  | .flagsFalse p l k => Sys2Proof.Machine.execFlagsFalse p l k s
  | .shl p l k d a n => Sys2Proof.Machine.execShl p l k d a n s
  | .shr p l k d a n => Sys2Proof.Machine.execShr p l k d a n s
  | .sar p l k d a n => Sys2Proof.Machine.execSar p l k d a n s
  | .rol p l k d a n => Sys2Proof.Machine.execRol p l k d a n s
  | .ror p l k d a n => Sys2Proof.Machine.execRor p l k d a n s
  | .rcl p l k d a => Sys2Proof.Machine.execRcl p l k d a s
  | .rcr p l k d a => Sys2Proof.Machine.execRcr p l k d a s
  | .vLdData p n m f w r => Sys2Proof.Machine.execVLdData p n m f w r s
  | .vLdRam p n m f w r => Sys2Proof.Machine.execVLdRam p n m f w r s
  | .vLdWfifo p n m f w r => Sys2Proof.Machine.execVLdWfifo p n m f w r s
  | .vLdAr p n b a f w r => Sys2Proof.Machine.execVLdAr p n b a f w r s
  | .vLdGr p n b a f w r => Sys2Proof.Machine.execVLdGr p n b a f w r s
  | .vLdArSetGr p n b a f w r => Sys2Proof.Machine.execVLdArSetGr p n b a f w r s
  | .vLdArInc p n b a f w r => Sys2Proof.Machine.execVLdArInc p n b a f w r s
  | .vLdDecAr p n b a f w r => Sys2Proof.Machine.execVLdDecAr p n b a f w r s
  | .vLdArIncGr p n b a f w r => Sys2Proof.Machine.execVLdArIncGr p n b a f w r s
  | .vLdArAddGr p n b a f w r => Sys2Proof.Machine.execVLdArAddGr p n b a f w r s
  | .vSt p n m f w r => Sys2Proof.Machine.execVSt p n m f w r s
  | .vStRam p n m f w r => Sys2Proof.Machine.execVStRam p n m f w r s
  | .vStAr p n a f w r => Sys2Proof.Machine.execVStAr p n a f w r s
  | .vStGr p n a f w r => Sys2Proof.Machine.execVStGr p n a f w r s
  | .vStArSetGr p n a f w r => Sys2Proof.Machine.execVStArSetGr p n a f w r s
  | .vStArInc p n a f w r => Sys2Proof.Machine.execVStArInc p n a f w r s
  | .vStDecAr p n a f w r => Sys2Proof.Machine.execVStDecAr p n a f w r s
  | .vStArIncGr p n a f w r => Sys2Proof.Machine.execVStArIncGr p n a f w r s
  | .vStArAddGr p n a f w r => Sys2Proof.Machine.execVStArAddGr p n a f w r s
  | .vStRamCopy p n m f w r => Sys2Proof.Machine.execVStRamCopy p n m f w r s
  | .vNoLeft p n r => Sys2Proof.Machine.execVNoLeft p n r s
  | .vnul p => Sys2Proof.Machine.execVnul p s
  | .wfifoLd p n m r => Sys2Proof.Machine.execWfifoLd p n m r s
  | .wfifoLdFtw p n m r => Sys2Proof.Machine.execWfifoLdFtw p n m r s
  | .wfifoLdFtwWtw p n m r => Sys2Proof.Machine.execWfifoLdFtwWtw p n m r s
  | .ftw p => Sys2Proof.Machine.execFtw p s
  | .ftwWith p n w r => Sys2Proof.Machine.execFtwWith p n w r s
  | .wtw p o => Sys2Proof.Machine.execWtw p o s
  | .ftwWtw p => Sys2Proof.Machine.execFtwWtw p s
  | .vNoRight p n l => Sys2Proof.Machine.execVNoRight p n l s
  | .vOr p n l x y => Sys2Proof.Machine.execVOr p n l x y s
  | .vAnd p n l x y => Sys2Proof.Machine.execVAnd p n l x y s
  | .vXor p n l x y => Sys2Proof.Machine.execVXor p n l x y s
  | .vNot p n l x => Sys2Proof.Machine.execVNot p n l x s
  | .vNotOr p n l x y => Sys2Proof.Machine.execVNotOr p n l x y s
  | .vOrNot p n l x y => Sys2Proof.Machine.execVOrNot p n l x y s
  | .vNotOrNot p n l x y => Sys2Proof.Machine.execVNotOrNot p n l x y s
  | .vNotAnd p n l x y => Sys2Proof.Machine.execVNotAnd p n l x y s
  | .vAndNot p n l x y => Sys2Proof.Machine.execVAndNot p n l x y s
  | .vNotAndNot p n l x y => Sys2Proof.Machine.execVNotAndNot p n l x y s
  | .vNotXor p n l x y => Sys2Proof.Machine.execVNotXor p n l x y s
  | .vFalse p n l => Sys2Proof.Machine.execVFalse p n l s
  | .vTrue p n l => Sys2Proof.Machine.execVTrue p n l s
  | .vAdd p n l x y => Sys2Proof.Machine.execVAdd p n l x y s
  | .vSub p n l x y => Sys2Proof.Machine.execVSub p n l x y s
  | .vNegY p n l y => Sys2Proof.Machine.execVNegY p n l y s
  | .vInc p n l x => Sys2Proof.Machine.execVInc p n l x s
  | .vOne p n l => Sys2Proof.Machine.execVOne p n l s
  | .vDec p n l x => Sys2Proof.Machine.execVDec p n l x s
  | .vMinusOne p n l => Sys2Proof.Machine.execVMinusOne p n l s
  | .vMask p n l m x y => Sys2Proof.Machine.execVMask p n l m x y s
  | .vMaskShift p n l m x y => Sys2Proof.Machine.execVMaskShift p n l m x y s
  | .vSum0 p n l x => Sys2Proof.Machine.execVSum0 p n l x s
  | .vSumY p n l x y => Sys2Proof.Machine.execVSumY p n l x y s
  | .vSumMask p n l m x y => Sys2Proof.Machine.execVSumMask p n l m x y s
  | .vSumShift p n l m x y => Sys2Proof.Machine.execVSumShift p n l m x y s
  | .vActXOr p n l x y => Sys2Proof.Machine.execVActXOr p n l x y s
  | .vNotActXAnd p n l x y => Sys2Proof.Machine.execVNotActXAnd p n l x y s
  | .vOrActY p n l x y => Sys2Proof.Machine.execVOrActY p n l x y s
  | .vAndNotActY p n l x y => Sys2Proof.Machine.execVAndNotActY p n l x y s
  | .vActXXorActY p n l x y => Sys2Proof.Machine.execVActXXorActY p n l x y s
  | .vNotActXAndNotActY p n l x y => Sys2Proof.Machine.execVNotActXAndNotActY p n l x y s
  | .vMaskActX p n l m x y => Sys2Proof.Machine.execVMaskActX p n l m x y s
  | .vMaskActY p n l m x y => Sys2Proof.Machine.execVMaskActY p n l m x y s
  | .vMaskActXY p n l m x y => Sys2Proof.Machine.execVMaskActXY p n l m x y s
  | .vMaskShiftActX p n l m x y => Sys2Proof.Machine.execVMaskShiftActX p n l m x y s
  | .vActXAdd p n l x y => Sys2Proof.Machine.execVActXAdd p n l x y s
  | .vSubActY p n l x y => Sys2Proof.Machine.execVSubActY p n l x y s
  | .vActXAddActY p n l x y => Sys2Proof.Machine.execVActXAddActY p n l x y s
  | .vSumActX p n l x y => Sys2Proof.Machine.execVSumActX p n l x y s
  | .vSumActY p n l x y => Sys2Proof.Machine.execVSumActY p n l x y s
  | .vSumMaskActXY p n l m x y => Sys2Proof.Machine.execVSumMaskActXY p n l m x y s
  | .vSumShiftActX p n l x => Sys2Proof.Machine.execVSumShiftActX p n l x s
  | .vAnyActivated p n l r => Sys2Proof.Machine.execVAnyActivated p n l r s
  | .storeVregs p n l => Sys2Proof.Machine.execStoreVregs p n l s

end Sys2Proof.Machine
end

