-- ==== Sys2Proof/Machine/Fetch.lean ====
section
/-! DEFINITION. Fetching and decoding at ipc, the events of the schedule, and the placing of a word where the
next fetch finds it. -/

namespace Sys2Proof.Machine

open Sys2Proof

/-- The instruction at ipc: memory is read at the moment of execution (R228, D17), as access number 64 of the step. -/
def State.fetch (s : State) : Except DecodeError Instr :=
  decode (s.read32 64 s.ipc) (s.read32 64 (s.ipc + 1))

/-- An interrupt is taken now: no delayed transfer is pending and a request is enabled (R830, R477). -/
def State.interruptNow (s : State) : Option (Fin 9) :=
  if s.pending.isSome then none else s.nextReq

/-- The step that takes an interrupt (R830). It executes no instruction. -/
def State.interruptStep (s : State) (k : Fin 9) : Result :=
  match s.takeInterrupt k with
  | .error r => .refused r
  | .ok t => .next t.clearFifos

/-- The end of the step of another agent. -/
def finishEvent : Except Refusal State → Result
  | .error r => .refused r
  | .ok t => .next t.clearFifos.tickFree

/-- The effect of an event that is no step of the processor (entry 16). -/
def State.event (s : State) : Input → Except Refusal State
  | .core => .ok s
  | .timerClock => .ok ((s.tickTimer .u0).tickTimer .u1)
  | .portOffer p w => .ok (s.offer p w)
  | .dmaIn p => s.dmaInput p
  | .dmaOut p => s.dmaOutput p
  | .extInt => .ok (s.raise 5)
  | .reset => .ok s.resetEvent

/-- A word put into memory from outside, whatever MemMap says. -/
def State.poke (s : State) (a v : Word) : State := { s with mem := Memory.setWord s.mem a v }

/-- Nothing comes before the next fetch: no event, no interrupt, not stuck, every address backed. -/
def State.readyToFetch (s : State) : State :=
  { s with inputs := [], ireq := 0, stuck := false, params := { s.params with unbacked := [] } }

end Sys2Proof.Machine
end

