-- ==== Sys2Proof/Machine/Step.lean ====
section
/-! DEFINITION. One step of the machine (spec/20_memory.md R221), and the word placed for the next fetch. -/

namespace Sys2Proof.Machine

open Sys2Proof

/-- A step of the processor: nothing while it is blocked (R845), else an interrupt, else the instruction at ipc
(R830). -/
def coreStep (s : State) : Result :=
  if s.stuck then .next s
  else
    match s.interruptNow with
    | some k => s.interruptStep k
    | none =>
      match s.fetch with
      | .error _ => .refused .undecodable
      | .ok i => exec i s

/-- One step: the next event of the schedule; with none left, or at `core`, the processor (R221, entry 16). -/
def step (s : State) : Result :=
  match s.inputs with
  | [] => coreStep s
  | .core :: rest => coreStep { s with inputs := rest }
  | e :: rest => finishEvent ({ s with inputs := rest }.event e)

/-- The instruction of bits `w` stored at ipc, so that the next step runs it (entry 26). -/
def State.withFetchWord (s : State) (nbits w : Nat) : State :=
  ((s.readyToFetch.poke s.ipc (BitVec.ofNat 32 (w % 2 ^ nbits))).poke (s.ipc + 1)
    (BitVec.ofNat 32 (w % 2 ^ nbits / 2 ^ 32)))

end Sys2Proof.Machine
end

