-- ==== Sys2Proof/Safety.lean ====
section
/-! DEFINITION. The terms of the statements: the invariant that every step keeps, when an instruction completes, and
what an instruction leaves alone. -/

namespace Sys2Proof.Machine

open Sys2Proof

/-- A buffer holds at most 32 long words (spec/10_state.md R145, R155, R160). -/
def buffersFit (s : State) : Prop :=
  s.afifo.length ≤ 32 ∧ s.ram.length ≤ 32 ∧ s.wfifo.length ≤ 32

/-- A clear bit of field FCL keeps its buffer empty (R58). -/
def clearBitsHold (s : State) : Prop :=
  (s.psw 15 = true → s.wfifo = []) ∧ (s.psw 14 = true → s.afifo = [])

/-- A pending delayed transfer has between one and three delayed instructions to run (R475). -/
def pendingFits (s : State) : Prop := ∀ q, s.pending = some q → 1 ≤ q.n ∧ q.n ≤ 3

/-- A transfer of a port that has started and is not over has words left (R108). -/
def Port.movingFits (q : Port) : Prop :=
  (q.moving = some .input → q.icc ≠ 0) ∧ (q.moving = some .output → q.occ ≠ 0)

/-- While no DMA activity has been noted, no channel is set up: every counter is 0 (R73). -/
def dmaNoted (s : State) : Prop :=
  s.dmaSeen = false → s.port0.icc = 0 ∧ s.port0.occ = 0 ∧ s.port1.icc = 0 ∧ s.port1.occ = 0

/-- The invariant of the machine. -/
structure Inv (s : State) : Prop where
  mem : Memory.wf s.mem = true
  buffers : buffersFit s
  clear : clearBitsHold s
  pending : pendingFits s
  ports : s.port0.movingFits ∧ s.port1.movingFits
  dma : dmaNoted s

/-! ### The terms statements use: when an instruction completes -/

/-- Executing `i` at `s` answers a next state with a property. -/
def completes (i : Instr) (s : State) (post : State → Prop) : Prop := ∃ t, exec i s = .next t ∧ post t

/-- The left part of a scalar instruction completes: a long instruction is at an even address (R267), a 64-bit
access is even (R206), and a transfer that is taken is not among delayed instructions (R477). -/
def leftReady (l : SLeft) (k : Word) (s : State) : Prop :=
  (l.long = true → s.ipc.odd = false) ∧
  match l with
  | .load d m => d.wide = true → (m.ea k d.step s).odd = false
  | .store m r => r.wide = true → (m.ea k r.step s).odd = false
  | .push r | .pop r => r.wide = true → s.sp.odd = false
  | .xfer c delayed x => c.holds s = true → s.pending = none ∧
      (delayed = false → x.kind ≠ .jump → s.sp.odd = false)
  | _ => True

/-- A vector instruction passes its checks (R631 to R637, R715, R760). -/
def vectorReady (n : Rep) (l : VLeft) (r : VRight) (s : State) : Prop :=
  vectorDefect n l r = none ∧ s.wfifoBlocks (l.mem.wfifoLoad (n.val + 1)) l.ftw = false ∧
    s.vectorError (n.val + 1) l.mem r = false ∧ s.vectorOdd l.mem = false ∧ s.rowsAgree r = true

/-- The operand at repetition `k`: a word of a buffer, or of a device (R700). -/
def operand (s : State) (l : VLeft) (n : Rep) (x : VSrc) (k : Nat) : Long :=
  s.srcVal ⟨(s.vectorData l.mem (n.val + 1)).getD k 0, s.ram.getD k 0, s.afifo.getD k 0⟩ x

/-! ### What a part writes -/

/-- Whether a scalar left part leaves pswr alone (R62). -/
def keepsPswr : SLeft → Bool
  | .load d _ | .pop d | .setConst d | .copy d _ => d != .special (.one .pswr)
  | .pswrSet | .pswrClear => false
  | .xfer _ _ x => x != .iret
  | .nul | .nulC | .store _ _ | .push _ | .popDrop | .arMod _ => true

/-- Whether a scalar right part sets the flags (R545 to R549). -/
def setsFlags : SRight → Bool
  | .alu (.std _) _ _ _ | .alu .flagsOnly _ _ _ => true
  | .alu (.noflags _) _ _ _ | .nul => false
  | .shift _ _ _ n => !shiftIsNul n

/-- The address register a destination contains. -/
def arPart : Reg → Option Ix
  | .ar n | .pair n => some n
  | _ => none

/-- An address register after an addressing mode's update. -/
def arAfter (u : Option (Ix × Word)) (s : State) (j : Ix) : Word :=
  match u with
  | none => s.ar j
  | some (i, v) => if i = j then v else s.ar j

/-! ### Frames -/

/-- No byte of memory changed. -/
def sameMemory (s t : State) : Prop := ∀ x, Memory.byteAt t.mem x = Memory.byteAt s.mem x

/-- No byte of memory changed outside the `n` words from address `a` on. -/
def sameMemoryBut (a : Word) (n : Nat) (s t : State) : Prop :=
  ∀ x, (∀ d < n, ∀ j < 4, x ≠ byteAddr (a + BitVec.ofNat 32 d) j) →
    Memory.byteAt t.mem x = Memory.byteAt s.mem x

/-- The word at `a` after `v` is stored there; a word outside MemMap takes nothing (R230). -/
def wordStored (a v : Word) (s t : State) : Prop :=
  Memory.word t.mem a = if s.backed a then v else Memory.word s.mem a

/-- The vector registers, matrices and buffers unchanged; a FIFO clear bit empties its buffer (R58). -/
structure KeepsVector (s t : State) : Prop where
  f1cr : t.f1cr = s.f1cr
  f2cr : t.f2cr = s.f2cr
  nb1 : t.nb1 = s.nb1
  nb2 : t.nb2 = s.nb2
  sb1 : t.sb1 = s.sb1
  sb2 : t.sb2 = s.sb2
  vr : t.vr = s.vr
  ws : t.ws = s.ws
  wa : t.wa = s.wa
  ram : t.ram = s.ram
  afifo : t.afifo = if t.psw 14 then [] else s.afifo
  wfifo : t.wfifo = if t.psw 15 then [] else s.wfifo

/-- The peripheral registers and the hidden state, the record of a delayed transfer among it, unchanged. -/
structure KeepsPeripherals (s t : State) : Prop where
  gmicr : t.gmicr = s.gmicr
  lmicr : t.lmicr = s.lmicr
  port0 : t.port0 = s.port0
  port1 : t.port1 = s.port1
  timer0 : t.timer0 = s.timer0
  timer1 : t.timer1 = s.timer1
  gbs : t.gbs = s.gbs
  lbs : t.lbs = s.lbs
  pending : t.pending = s.pending
  stuck : t.stuck = s.stuck
  dmaSeen : t.dmaSeen = s.dmaSeen
  params : t.params = s.params
  inputs : t.inputs = s.inputs

/-- What a scalar right part leaves alone: the general-purpose registers it does not name, pswr bits 31:4 and,
where it sets no flags, all of pswr; it can add the request SPR only. `dst` is the register the left part beside
it writes. -/
structure RightFrame (dst : Option Reg) (r : SRight) (s t : State) : Prop where
  gr : ∀ j, j ∉ r.grWrites → dst.bind Reg.grPart ≠ some j → t.gr j = s.gr j
  pswr : dst ≠ some (.special (.one .pswr)) → setsFlags r = false → t.pswr = s.pswr
  pswrHigh : dst ≠ some (.special (.one .pswr)) → ∀ n, 4 ≤ n → t.psw n = s.psw n
  ireq : ∀ n, n ≠ 7 → t.ireq.getLsbD n = s.ireq.getLsbD n
  ireqOn : s.ireq.getLsbD 7 = true → t.ireq.getLsbD 7 = true

/-- The general-purpose registers and pswr after an operation with result `r`, overflow `v` and carry `c`, beside
any left part: the destination, the four flags (R542), and the request SPR (R544). `nf` is the `noflags` form;
`arith` says that the operation is of type 6.3 and no multiply step. No record of a delayed transfer is left, unless
the left part is one. -/
structure OperationPost (l : SLeft) (nf : Bool) (d : Option Ix) (r : Word) (v c arith : Bool) (s t : State) : Prop where
  dst : ∀ j, d = some j → t.gr j = r
  gr : ∀ j, d ≠ some j → l.grWrite ≠ some j → t.gr j = s.gr j
  flags : nf = false → keepsPswr l = true →
    t.psw 3 = r.msb ∧ t.psw 2 = decide (r = 0) ∧ t.psw 1 = v ∧ t.psw 0 = c
  high : keepsPswr l = true → ∀ n, 4 ≤ n → t.psw n = s.psw n
  kept : nf = true → keepsPswr l = true → t.pswr = s.pswr
  ireq : t.ireq = if nf = false ∧ arith = true ∧ v = true then s.ireq ||| BitVec.twoPow 9 7 else s.ireq
  pending : (∀ cond x, l ≠ .xfer cond true x) → t.pending = none

/-- The records `q` and `r` that two instructions with left part `l` leave after `s` are the same, but for the number of
delayed instructions of a delayed transfer where the parameter DelaySlots is not 1 throughout (R475). -/
def sameRecord (l : SLeft) (s : State) (q r : Option Pending) : Prop :=
  q.map (fun x => (x.taken, x.kind, x.target)) = r.map (fun x => (x.taken, x.kind, x.target)) ∧
    ((∀ c x, l ≠ .xfer c true x) ∨ s.params.delaySlots = [] → r = q)

/-- What a statement about a right part assumes of the instruction, its left part `l` with constant `k`, and the
state; then the instruction completes with `post`. -/
def rightRow (i : Instr) (l : SLeft) (k : Word) (s : State) (post : State → Prop) : Prop :=
  i.wellFormed = true → leftReady l k s → s.pending = none → completes i s post

/-- What a statement about a left part assumes of the instruction and the state: the instruction is in the tables, a
long one is at an even address, and no delayed transfer is pending. -/
def leftRow (i : Instr) (s : State) (post : State → Prop) : Prop :=
  i.wellFormed = true → (i.code.low.long = true → s.ipc.odd = false) → s.pending = none → completes i s post

/-- A special register named by a destination. -/
def Special.names : Special → SpecReg → Prop
  | .one r, q => q = r
  | .two p, q => q = (pairRegs p).1 ∨ q = (pairRegs p).2

/-- The direction of a port's transfer in progress after a write: ended where its counter (`i`: icc is written, `o`:
occ is written) becomes 0, else as before (R108). -/
def movingAfter (i o : Prop) (q r : Port) : Prop :=
  ((i ∧ r.icc = 0 ∧ q.moving = some .input) ∨ (o ∧ r.occ = 0 ∧ q.moving = some .output) → r.moving = none) ∧
  (¬ ((i ∧ r.icc = 0 ∧ q.moving = some .input) ∨ (o ∧ r.occ = 0 ∧ q.moving = some .output)) → r.moving = q.moving)

/-- What a write to a special register or pair leaves alone; a counter written with a value that is not 0 is DMA
activity (R73). -/
structure KeepsSpecial (x : Special) (s t : State) : Prop where
  vector : KeepsVector s t
  regs : ∀ r, r ≠ .intr → r ≠ .pswr → ¬ Special.names x r → t.readSpec r = s.readSpec r
  timer0 : ¬ Special.names x .t0 → t.timer0 = s.timer0
  timer1 : ¬ Special.names x .t1 → t.timer1 = s.timer1
  dir : t.port0.dir = s.port0.dir ∧ t.port1.dir = s.port1.dir
  moving : movingAfter (Special.names x .icc0) (Special.names x .occ0) s.port0 t.port0 ∧
    movingAfter (Special.names x .icc1) (Special.names x .occ1) s.port1 t.port1
  links : t.port0.inQ = s.port0.inQ ∧ t.port1.inQ = s.port1.inQ ∧
    t.port0.outQ = s.port0.outQ ∧ t.port1.outQ = s.port1.outQ
  dmaSeen : t.dmaSeen = true ↔ s.dmaSeen = true ∨
    ∃ r ∈ [SpecReg.icc0, .icc1, .occ0, .occ1], Special.names x r ∧ t.readSpec r ≠ 0
  hidden : t.gbs = s.gbs ∧ t.lbs = s.lbs ∧ t.stuck = s.stuck ∧ t.pending = s.pending ∧ t.params = s.params ∧
    t.inputs = s.inputs

/-- The vector control register a name of Table 5-2 belongs to. -/
def vctlReg : VCtl → VReg
  | .full v => v
  | .half .nb1l | .half .nb1h => .nb1
  | .half .sbl | .half .sbh => .sb
  | .half .f1crl | .half .f1crh => .f1cr
  | .half .f2crl | .half .f2crh => .f2cr
  | .half .vrl | .half .vrh => .vr

/-- What a write to a vector control register leaves alone. -/
structure KeepsVctl (c : VCtl) (s t : State) : Prop where
  peripherals : KeepsPeripherals s t
  f1cr : vctlReg c ≠ .f1cr → t.f1cr = s.f1cr
  f2cr : vctlReg c ≠ .f2cr → t.f2cr = s.f2cr
  nb1 : vctlReg c ≠ .nb1 → t.nb1 = s.nb1
  sb1 : vctlReg c ≠ .sb → t.sb1 = s.sb1
  vr : vctlReg c ≠ .vr → t.vr = s.vr
  active : t.nb2 = s.nb2 ∧ t.sb2 = s.sb2 ∧ t.ws = s.ws ∧ t.wa = s.wa
  buffers : t.ram = s.ram ∧ t.afifo = (if t.psw 14 then [] else s.afifo) ∧
    t.wfifo = (if t.psw 15 then [] else s.wfifo)

/-- What a write to a register leaves alone, outside the primary file and pswr. -/
def keepsBut (dst : Reg) (s t : State) : Prop :=
  match dst with
  | .ar _ | .gr _ | .pair _ => KeepsVector s t ∧ KeepsPeripherals s t
  | .special x => KeepsSpecial x s t
  | .vctl c => KeepsVctl c s t

/-- What a special register holds after `w` is written to it (R403, R440). -/
def specHolds (r : SpecReg) (w : Word) (s t : State) : Prop :=
  match r with
  | .pswr => ∀ n < 32, t.psw n = if 20 ≤ n ∧ n ≤ 25 then s.psw n else w.getLsbD n
  | .t0 => t.timer0.count = w ∧ t.timer0.reload = w ∧ t.timer0.stopped = false
  | .t1 => t.timer1.count = w ∧ t.timer1.reload = w ∧ t.timer1.stopped = false
  | r => t.readSpec r = w

/-- What a vector control register holds after `v` (a half: its low word) is written to it (R126, R134). -/
def vctlHolds (c : VCtl) (v : Long) (s t : State) : Prop :=
  match c with
  | .full .nb1 => t.nb1 = v
  | .full .f1cr => t.f1cr = v
  | .full .f2cr => t.f2cr = v
  | .full .vr => t.vr = v
  | .full .sb => ∀ j < 32, t.sb1.getLsbD j = v.getLsbD (2 * j + 1)
  | .half .nb1l => t.nb1.lo = v.lo ∧ t.nb1.hi = s.nb1.hi
  | .half .nb1h => t.nb1.hi = v.lo ∧ t.nb1.lo = s.nb1.lo
  | .half .f1crl => t.f1cr.lo = v.lo ∧ t.f1cr.hi = s.f1cr.hi
  | .half .f1crh => t.f1cr.hi = v.lo ∧ t.f1cr.lo = s.f1cr.lo
  | .half .f2crl => t.f2cr.lo = v.lo ∧ t.f2cr.hi = s.f2cr.hi
  | .half .f2crh => t.f2cr.hi = v.lo ∧ t.f2cr.lo = s.f2cr.lo
  | .half .vrl => t.vr.lo = v.lo ∧ t.vr.hi = s.vr.hi
  | .half .vrh => t.vr.hi = v.lo ∧ t.vr.lo = s.vr.lo
  | .half .sbl => ∀ j < 16, t.sb1.getLsbD j = v.getLsbD (2 * j + 1) ∧
      t.sb1.getLsbD (16 + j) = s.sb1.getLsbD (16 + j)
  | .half .sbh => ∀ j < 16, t.sb1.getLsbD (16 + j) = v.getLsbD (2 * j + 1) ∧
      t.sb1.getLsbD j = s.sb1.getLsbD j

/-- What a destination holds after `v` is written to it (R403). -/
def regHolds (dst : Reg) (v : Long) (s t : State) : Prop :=
  match dst with
  | .ar n => t.ar n = v.lo
  | .gr n => t.gr n = v.lo
  | .pair n => t.ar n = v.hi ∧ t.gr n = v.lo
  | .special (.one r) => specHolds r v.lo s t
  | .special (.two p) => specHolds (pairRegs p).1 v.hi s t ∧ specHolds (pairRegs p).2 v.lo s t
  | .vctl c => vctlHolds c v s t

/-- The frame of a scalar instruction that changes nothing but address registers, ipc and what its right part
writes. -/
structure OnlyRegisters (r : SRight) (s t : State) : Prop where
  right : RightFrame none r s t
  memory : sameMemory s t
  vector : KeepsVector s t
  peripherals : KeepsPeripherals s t

/-- The frame of a vector instruction: scalar registers, pswr, the requests and the peripherals unchanged. -/
structure VectorFrame (s t : State) : Prop where
  gr : ∀ j, t.gr j = s.gr j
  pswr : t.pswr = s.pswr
  ireq : t.ireq = s.ireq
  ipc : t.ipc = s.ipc + 1
  peripherals : KeepsPeripherals s t
  config : t.f1cr = s.f1cr ∧ t.f2cr = s.f2cr ∧ t.nb1 = s.nb1 ∧ t.sb1 = s.sb1 ∧ t.vr = s.vr

/-- wfifo and the matrices after `ftw` (`f`) and then `wtw` (`w`), `q` being wfifo before them (R680, R685, R58). -/
structure WeightsAfter (f w : Bool) (q : List Long) (s t : State) : Prop where
  ws : t.ws = if f then q.take (rows s.sb1) else s.ws
  wfifo : t.wfifo = if t.psw 15 then [] else if f then q.drop (rows s.sb1) else q
  wa : t.wa = if w then t.ws else s.wa
  nb2 : t.nb2 = if w then s.nb1 else s.nb2
  sb2 : t.sb2 = if w then s.sb1 else s.sb2

/-- afifo after an instruction that leaves `q` in it (R58). -/
def afifoHolds (q : List Long) (t : State) : Prop := t.afifo = if t.psw 14 then [] else q

/-- A vector instruction that passes its checks completes with `post`. -/
def vectorRow (i : Instr) (n : Rep) (l : VLeft) (r : VRight) (s : State) (post : State → Prop) : Prop :=
  vectorReady n l r s → s.pending = none → completes i s post

/-- The words `z 0 .. z n` of a vector instruction with count n + 1. -/
def words (n : Rep) (z : Nat → Long) : List Long := (List.range (n.val + 1)).map z

/-- The scalar addressing mode a vector memory mode repeats (R210). -/
def vmodeScalar : VMode → Mode
  | .ar n => .ar n
  | .gr n => .gr n
  | .arSetGr n => .arSetGr n
  | .arInc n => .arInc n
  | .decAr n => .decAr n
  | .arIncGr n => .arIncGr n
  | .arAddGr n => .arAddGr n

/-- The state after `k` uses of a mode, each a scalar use with an access step of 2. -/
def afterUses (m : VMode) : Nat → State → State
  | 0, s => s
  | k + 1, s => (afterUses m k s).applyUpd ((vmodeScalar m).upd 0 2 (afterUses m k s))

end Sys2Proof.Machine
end

