-- ==== Sys2Proof/Certificates/Slice0/Obligations.lean ====
section
/-! DEFINITION. The statements for the provers. A list of rows in a statement pairs each constructor of Instr with
what the statement says of it; `rightRow`, `leftRow` and `vectorRow` (Sys2Proof/Safety.lean) give its hypotheses on the
state and the operands and conclude that `exec` answers a next state. -/

open Sys2Proof Sys2Proof.Machine

/-! ### Encoding and decoding -/

/-- R262 (f): the zero word is `vnul` with P = 0, whatever follows, and `vnul` is encoded as the zero word. -/
def Obligations.DecodeZeroWord : Prop :=
  (∀ w1, decode 0 w1 = .ok (.vnul false)) ∧ encode (.vnul false) = [0] ∧
    decodeTableWord 32 0 = some (.vnul false)

/-- R263: the four constraints the source puts on Decode, and R716: Decode yields no form outside the tables. That
only forms of the tables come out of Decode is the model's choice (entry 20). -/
def Obligations.DecodeParameter : Prop :=
  (∀ w1, decode 0 w1 = .ok (.vnul false)) ∧
  (∀ w0 v w i, decode w0 v = .ok i → ∃ j, decode w0 w = .ok j ∧ j.code.low = i.code.low) ∧
  (∀ w0 w1 i, decode w0 w1 = .ok i → i.code.low.long = true → i.code.k = w1) ∧
  (∀ l : Low, l.wellFormed = true → ∃ w0, ∀ w1, ∃ i, decode w0 w1 = .ok i ∧ i.code.low = l) ∧
  (∀ w0 w1 i, decode w0 w1 = .ok i → i.wellFormed = true)

/-- Decode and encode agree: a well-formed instruction is read back from its words, whatever word `w` follows it; a
row of a right part is read back as the constructor of its left part's row, which stands for the same instruction.
The choice of a constructor is the model's (entry 22). -/
def Obligations.DecodeEncode : Prop :=
  ∀ (i : Instr) (w : Word), i.wellFormed = true →
    (encode i).length = (if i.code.low.long then 2 else 1) ∧
    decode ((encode i ++ [w]).getD 0 0) ((encode i ++ [w]).getD 1 0) = .ok i.canon ∧
    i.canon.code = i.code ∧ i.canon.canon = i.canon

/-- Constructors that stand for the same instruction of R264 have the same meaning. That one instruction has several
constructors is the model's choice (entry 22). -/
def Obligations.ConstructorsAgree : Prop :=
  ∀ i j : Instr, i.code = j.code → ∀ s, exec i s = exec j s

/-! ### The step -/

/-- A step runs the instruction decoded at ipc, when the schedule gives the processor the step, it is not blocked,
and no interrupt is taken: one is pending only while masked, or a delayed transfer is pending (R221, R830). The
schedule is the model's choice (entry 16). -/
def Obligations.StepRunsDecoded : Prop :=
  ∀ (s : State) (i : Instr), s.stuck = false →
    (s.pending.isSome = true ∨ ∀ k : Fin 9, s.ireq.getLsbD k = true → s.psw (k + 5) = true) →
    decode (s.read32 64 s.ipc) (s.read32 64 (s.ipc + 1)) = .ok i →
    (s.inputs = [] → step s = exec i s) ∧
    (∀ rest, step { s with inputs := .core :: rest } = exec i { s with inputs := rest })

/-- R830: the step that takes the first enabled request of IntPriority, with even sp; with odd sp it is refused. The
sequence is the spec's completion, D12 and D6 (entry 17), the lost write outside MemMap D3 (entry 12). -/
def Obligations.InterruptEntry : Prop :=
  ∀ (s : State) (k : Fin 9) (before after : List (Fin 9)),
    s.inputs = [] → s.stuck = false → s.pending = none →
    s.params.intPriority = before ++ k :: after →
    (∀ j ∈ before, s.ireq.getLsbD j = true → s.psw (j + 5) = true) →
    s.ireq.getLsbD k = true → s.psw (k + 5) = false →
    (s.sp.odd = true → step s = .refused .oddLongAddress) ∧
    (s.sp.odd = false → ∃ t, step s = .next t ∧
      wordStored s.sp s.ipc s t ∧ wordStored (s.sp + 1) s.pswr s t ∧ sameMemoryBut s.sp 2 s t ∧
      t.sp = s.sp + 2 ∧ (∀ j, j ≠ 7 → t.ar j = s.ar j) ∧ (∀ j, t.gr j = s.gr j) ∧
      (∀ n, t.ireq.getLsbD n = (s.ireq.getLsbD n && !decide (n = k.val))) ∧
      t.pswr = s.pswr ||| s.params.entryMask ∧ t.ipc = Config.intVector k ∧ t.pending = none ∧
      KeepsVector s t ∧ KeepsPeripherals s t)

/-- R830 and R512: `ireturn` undoes the entry: after a step that takes an interrupt, `ireturn` at the handler's end
resumes at the interrupted address with the interrupted pswr and sp, whatever the handler did to the other
registers, as long as it left sp, the two frame words and the CP fields of pswr as they were. The frame and what is
restored are the spec's decisions D6, D12, D14 (entry 17). -/
def Obligations.InterruptReturn : Prop :=
  ∀ (s t u : State) (k : Fin 9), s.takeInterrupt k = .ok t →
    s.backed s.sp = true → s.backed (s.sp + 1) = true → u.params = s.params →
    u.sp = t.sp → Memory.word u.mem s.sp = Memory.word t.mem s.sp →
    Memory.word u.mem (s.sp + 1) = Memory.word t.mem (s.sp + 1) →
    (∀ n, 20 ≤ n → n ≤ 25 → u.psw n = s.psw n) → u.pending = none →
    ∃ v, exec (.iret false .always false .nul) u = .next v ∧ v.ipc = s.ipc ∧ v.pswr = s.pswr ∧ v.sp = s.sp

/-- R845: a blocked processor makes no instruction step and takes no interrupt: nothing but RESET unblocks it, and
no other step changes ipc, the register file, pswr, or the vector registers, matrices and buffers. That only RESET
unblocks is the spec's reading (entry 27). -/
def Obligations.StuckStays : Prop :=
  ∀ (s t : State), Inv s → s.stuck = true → (∀ rest, s.inputs ≠ .reset :: rest) → step s = .next t →
    t.stuck = true ∧ t.ipc = s.ipc ∧ (∀ j, t.ar j = s.ar j) ∧ (∀ j, t.gr j = s.gr j) ∧ t.pswr = s.pswr ∧
      KeepsVector s t

/-! ### Invariants -/

/-- The invariant holds after reset (R180, R58). It speaks of the counters icc0, icc1, occ0 and occ1, whose 0 after reset
the source does not state: that is the spec's decision D9 (R111; entry 7). That memory lists nothing, and that the records
of a port's started transfer and of DMA activity start empty, is the model's choice (entries 3, 11, 19). -/
def Obligations.InvReset : Prop := Inv State.reset

/-- Every step keeps the invariant: memory in canonical form, the buffers within 32 words, a buffer empty while its
clear bit is set, one to three delayed instructions to run, a port's started transfer with words left, no channel set
up without a note of DMA activity; and only RESET takes that note back (R58, R73, R108, R145, R155, R160, R475). What
counts as DMA activity is the model's reading (entry 11). -/
def Obligations.InvStep : Prop := ∀ s t : State, Inv s → step s = .next t →
  Inv t ∧ (s.dmaSeen = true → (∀ rest, s.inputs ≠ .reset :: rest) → t.dmaSeen = true)

/-- R56: outside `pswr set` and `pswr clear`, no instruction changes the fields CP0 and CP1 control. -/
def Obligations.CpFieldsKept : Prop :=
  ∀ (i : Instr) (s t : State), exec i s = .next t →
    (∀ p k r, i.code ≠ ⟨.scalar p .pswrSet r, k⟩) → (∀ p k r, i.code ≠ ⟨.scalar p .pswrClear r, k⟩) →
    ∀ n, 20 ≤ n → n ≤ 25 → t.psw n = s.psw n

/-- R61: an instruction whose right part sets no flags and whose left part is none of R62 leaves pswr alone, unless a
delayed `ireturn` ends with it; so does every vector instruction. -/
def Obligations.FlagWriters : Prop :=
  ∀ (i : Instr) (s t : State), exec i s = .next t →
    (∀ q, s.pending = some q → q.taken = true → q.kind ≠ .iret) →
    (match i.code.low with
      | .scalar _ l r => keepsPswr l = true ∧ setsFlags r = false
      | .vector _ _ _ _ | .bare _ _ => True) →
    t.pswr = s.pswr

/-- R44: an instruction that is no taken control transfer, and with which no delayed transfer ends, advances ipc by
its length, unless it blocks the processor. -/
def Obligations.IpcAdvance : Prop :=
  ∀ (i : Instr) (s t : State), exec i s = .next t → s.stuck = false → t.stuck = false →
    (∀ q, s.pending = some q → 1 < q.n ∨ q.taken = false) →
    (∀ p c x r k, i.code = ⟨.scalar p (.xfer c false x) r, k⟩ → c.holds s = false) →
    t.ipc = s.ipc + (if i.code.low.long then 2 else 1)

/-- R685: `wtw` is the only way to change nb2, sb2 and the Active Matrix: an instruction that carries no `wtw` leaves
them alone, whatever it is. -/
def Obligations.WtwOnly : Prop :=
  ∀ (i : Instr) (s t : State), exec i s = .next t →
    (match i.code.low with
      | .scalar _ _ _ => True
      | .vector _ _ l _ => l.wtw = false
      | .bare _ b => b = .ftw ∨ b = .vnul) →
    t.nb2 = s.nb2 ∧ t.sb2 = s.sb2 ∧ t.wa = s.wa

/-- R811: no instruction clears a request, and no event but RESET does; interrupt entry clears the request taken and
no other. That nothing else clears a request is the spec's decision D29. -/
def Obligations.RequestsKept : Prop :=
  ∀ (s t : State), step s = .next t → (∀ rest, s.inputs ≠ .reset :: rest) →
    ∀ n, s.ireq.getLsbD n = true → t.ireq.getLsbD n = true ∨
      ∃ k : Fin 9, k.val = n ∧ s.psw (n + 5) = false ∧ s.pending = none ∧ t.ipc = Config.intVector k

/-! ### Memory, registers and conditions -/

/-- R205: the access primitives, and R230: a word outside MemMap loses writes. That an unbacked address loses writes
is the spec's decision D3 (entry 12). -/
def Obligations.MemReadWrite : Prop :=
  ∀ (s : State) (a b : Word) (v : Word) (w : Long) (k : Nat),
    (s.backed a = true → (s.write32 a v).read32 k a = v) ∧
    (b ≠ a → (s.write32 a v).read32 k b = s.read32 k b) ∧
    (s.backed a = true → s.backed (a + 1) = true →
      (s.write64 a w).read64 k a = w ∧ (s.write64 a w).read32 k a = w.extractLsb' 0 32 ∧
        (s.write64 a w).read32 k (a + 1) = w.extractLsb' 32 32) ∧
    (s.backed a = false → s.write32 a v = s)

/-- R520: the condition table. -/
def Obligations.ConditionTable : Prop :=
  ∀ (s : State) (n z v c : Bool), s.psw 3 = n → s.psw 2 = z → s.psw 1 = v → s.psw 0 = c →
    (Cond.always.holds s = true) ∧
    (Cond.eq0.holds s = true ↔ z = true) ∧
    (Cond.ne0.holds s = true ↔ z = false) ∧
    (Cond.gt.holds s = true ↔ z = false ∧ n = false) ∧
    (Cond.lt.holds s = true ↔ n = true) ∧
    (Cond.ge.holds s = true ↔ n = false) ∧
    (Cond.le.holds s = true ↔ n = true ∨ z = true) ∧
    (Cond.uge.holds s = true ↔ c = false) ∧
    (Cond.ult.holds s = true ↔ c = true) ∧
    (Cond.carry.holds s = true ↔ c = true) ∧
    (Cond.notCarry.holds s = true ↔ c = false) ∧
    (Cond.vtrue.holds s = true ↔ v = true) ∧
    (Cond.vfalse.holds s = true ↔ v = false) ∧
    (Cond.vgt.holds s = true ↔ ¬ (n ≠ v ∨ z = true)) ∧
    (Cond.vlt.holds s = true ↔ n ≠ v) ∧
    (Cond.vge.holds s = true ↔ n = v) ∧
    (Cond.vle.holds s = true ↔ n ≠ v ∨ z = true)

/-- R325, R716: the model's choice (entry 20): an instruction outside the tables is refused with the name of its
defect, and these forms are outside the tables: pc or intr as a destination (R46, R70), pc or a vector control register
as a source (R42, R126), a 64-bit source with a 32-bit destination (R404), address registers of both groups (R450),
both parts writing one general-purpose register (R548), `store vregs` with n other than 5 (R790), `wtw` beside an
arithmetic right part (R637), a multiply step with another operand than gr7 or without a destination (R575, R576,
R597), `C<<` or `C>>` by 2 to 31 (R606, R607). Refused by name too: a long instruction at an odd address (R267); a 64-bit
load, store, push or pop at an odd address, and a call or return, not delayed, that is taken with odd sp (R206, R389); a
vector instruction that passes its other checks and whose mode uses an odd register (R633), or whose `vsum` finds
another number of rows in the Active Matrix than sb2 says (R760). -/
def Obligations.Refusals : Prop :=
  (∀ (i : Instr) (s : State) (d : Defect), i.code.low.defect = some d → exec i s = .refused (.illFormed d)) ∧
  (∀ (s : State) (p : Bool) (a d : Ix) (k : Word) (r : SRight) (q : SpecPair) (n : Rep) (l : VLeft)
      (x : VSrc) (c : VCtl),
    (∀ e ∈ [Instr.ldAr p (.special (.one .pc)) a r, .setSpec p (.one .pc) k r, .stackOther p true (.special (.two .pswrpc)) r],
      exec e s = .refused (.illFormed .pcAsDestination)) ∧
    (∀ e ∈ [Instr.cpSpecPrim p (.one .intr) (.gr a) r, .stackOther p true (.special (.one .intr)) r],
      exec e s = .refused (.illFormed .intrAsDestination)) ∧
    exec (.cpArSpec p a .pc r) s = .refused (.illFormed .pcAsData) ∧
    exec (.stAr p a (.vctl c) r) s = .refused (.illFormed .writeOnlySource) ∧
    (q ≠ .pswrpc → exec (.cpOther p (.vctl (.half .vrl)) (.special (.two q)) r) s =
      .refused (.illFormed .narrowingCopy)) ∧
    ((a.val < 4 ↔ ¬ d.val < 4) → exec (.amAddGr p d a r) s = .refused (.illFormed .dagGroups)) ∧
    exec (.add p (.copy (.gr d) (.ar a)) 0 false d a a) s = .refused (.illFormed .bothPartsWriteGr) ∧
    (n ≠ 4 → exec (.storeVregs p n l) s = .refused (.illFormed .storeVregsCount)) ∧
    ((∃ b, x = .buf b) → l.wtw = true → exec (.vInc p n l x) s = .refused (.illFormed .wtwWithArithmetic)) ∧
    (∀ fn ∈ [AluFn.mulFirst, .mulNext], ∀ b, exec (.testExpr p .nul 0 fn a b) s =
      .refused (.illFormed .multiplyFlagsOnly)) ∧
    (∀ fn ∈ [AluFn.mulFirst, .mulNext], ∀ f ∈ [AluForm.std d, .noflags d], ∀ b, b ≠ 7 →
      exec (.nul p (.alu f fn a b)) s = .refused (.illFormed .multiplyOperand)) ∧
    (∀ kind ∈ [ShiftKind.rcl, .rcr], ∀ amount : Fin 33, 2 ≤ amount.val → amount.val ≤ 31 →
      exec (.nul p (.shift kind d a amount)) s = .refused (.illFormed .rotateAmount))) ∧
  (∀ (i : Instr) (s : State), i.wellFormed = true → i.code.low.long = true → s.ipc.odd = true →
    exec i s = .refused .longAtOddAddress) ∧
  (∀ (i : Instr) (s : State) (p : Bool) (dst : Reg) (m : Mode) (r : SRight) (k : Word),
    i.code = ⟨.scalar p (.load dst m) r, k⟩ → i.wellFormed = true →
    (i.code.low.long = true → s.ipc.odd = false) → dst.wide = true → (m.ea k 2 s).odd = true →
    exec i s = .refused .oddLongAddress) ∧
  (∀ (i : Instr) (s : State) (p : Bool) (src : Reg) (m : Mode) (r : SRight) (k : Word),
    i.code = ⟨.scalar p (.store m src) r, k⟩ → i.wellFormed = true →
    (i.code.low.long = true → s.ipc.odd = false) → src.wide = true → (m.ea k 2 s).odd = true →
    exec i s = .refused .oddLongAddress) ∧
  (∀ (i : Instr) (s : State) (p : Bool) (x : Reg) (r : SRight) (k : Word),
    i.code = ⟨.scalar p (.push x) r, k⟩ ∨ i.code = ⟨.scalar p (.pop x) r, k⟩ → i.wellFormed = true →
    x.wide = true → s.sp.odd = true → exec i s = .refused .oddLongAddress) ∧
  (∀ (i : Instr) (s : State) (p : Bool) (c : Cond) (x : Xfer) (r : SRight) (k : Word),
    i.code = ⟨.scalar p (.xfer c false x) r, k⟩ → i.wellFormed = true → (i.code.low.long = true → s.ipc.odd = false) →
    s.pending = none → c.holds s = true → x = .ret ∨ x = .iret ∨ (∃ y, x = .call y) ∨ (∃ y, x = .callrel y) →
    s.sp.odd = true → exec i s = .refused .oddLongAddress) ∧
  (∀ (i : Instr) (s : State) (p : Bool) (n : Rep) (l : VLeft) (r : VRight),
    i.code = ⟨.vector p n l r, 0⟩ → vectorDefect n l r = none →
    s.wfifoBlocks (l.mem.wfifoLoad (n.val + 1)) l.ftw = false → s.vectorError (n.val + 1) l.mem r = false →
    (∀ a : Ix,
      (l.mem.mode ∈ [some (.ar a), some (.arInc a), some (.decAr a), some (.arIncGr a), some (.arAddGr a)] ∧
        (s.ar a).odd = true) ∨
      (l.mem.mode ∈ [some (.gr a), some (.arSetGr a), some (.arIncGr a), some (.arAddGr a)] ∧ (s.gr a).odd = true) →
      exec i s = .refused .oddVectorAddress) ∧
    (∀ m sh x y, r = .vsum m sh x y → s.wa.length ≠ rows s.sb2 → s.vectorOdd l.mem = false →
      exec i s = .refused .rowCountMismatch))

/-! ### Scalar left parts -/

/-- R335 to R337: the empty parts. `nul` and `nul K` change nothing but what the right part writes, and the right part
executes normally: the general-purpose registers, pswr and the requests are what it makes of the state before (which
AddRows to MulRows say, with an empty left part, operation by operation). An omitted right part writes no
general-purpose register, no flag and no request. Constructors nul, nulK, withNulRight. -/
def Obligations.NopRows : Prop :=
  (∀ (s : State) (p : Bool) (k : Word) (r : SRight), ∀ e ∈ [(Instr.nul p r, (1 : Word)), (.nulK p k r, 2)],
    leftRow e.1 s fun t => OnlyRegisters r s t ∧ (∀ j, t.ar j = s.ar j) ∧ t.ipc = s.ipc + e.2 ∧
      (∀ j, t.gr j = (s.rightPart r).gr j) ∧ t.pswr = (s.rightPart r).pswr ∧ t.ireq = (s.rightPart r).ireq) ∧
  (∀ (s : State) (p : Bool) (l : SLeft) (k : Word), rightRow (.withNulRight p l k) l k s fun t =>
    (∀ j, l.grWrite ≠ some j → t.gr j = s.gr j) ∧ (keepsPswr l = true → t.pswr = s.pswr) ∧ t.ireq = s.ireq)

/-- R340 to R350, R210, R212: the loads. Each row: instruction, destination, effective address, update of the
address register, length; the step is 2 for a 64-bit destination. The second part is the row of the vector control
registers and their halves, in every mode (R126, R134). The spec's decisions, not the source's words: the loaded value
wins over the update of the address register, D32 (R212; entry 29); a loaded pswr wins over the flags of the right part,
D29 (R440; entry 29); a loaded timer is restarted with that reload value, D21 (R116; entry 30); a read outside MemMap
gives any value, D3 (R230; entry 12); which registers a load accepts, D33 (entry 21); wrapping, D5. What a load of a port
counter does to a started transfer and to the note of DMA activity is the model's choice (entries 11, 19). -/
def Obligations.LoadRows : Prop :=
  (∀ (s : State) (p : Bool) (dst : Reg) (a : Ix) (k st : Word) (r : SRight),
    st = (if dst.wide then 2 else 1) →
    ∀ e ∈ ([(.ldConst p dst k r, k, none, 2),
        (.ldAr p dst a r, s.ar a, none, 1),
        (.ldGr p dst a r, s.gr a, none, 1),
        (.ldArInc p dst a r, s.ar a, some (a, s.ar a + st), 1),
        (.ldDecAr p dst a r, s.ar a - st, some (a, s.ar a - st), 1),
        (.ldArIncGr p dst a r, s.ar a, some (a, s.ar a + s.gr a), 1),
        (.ldArAddGr p dst a r, s.ar a + s.gr a, some (a, s.ar a + s.gr a), 1),
        (.ldArSetGr p dst a r, s.gr a, some (a, s.gr a), 1),
        (.ldArSetConst p dst a k r, k, some (a, k), 2),
        (.ldArAddConst p dst a false k r, s.ar a + k, some (a, s.ar a + k), 2),
        (.ldArAddConst p dst a true k r, s.ar a - k, some (a, s.ar a - k), 2)] :
        List (Instr × Word × Option (Ix × Word) × Word)),
    (dst.wide = true → e.2.1.odd = false) →
    leftRow e.1 s fun t =>
      regHolds dst (if dst.wide then s.read64 0 e.2.1 else (s.read32 0 e.2.1).setWidth 64) s t ∧
      (∀ j, arPart dst ≠ some j → t.ar j = arAfter e.2.2.1 s j) ∧
      RightFrame (some dst) r s t ∧ sameMemory s t ∧ keepsBut dst s t ∧ t.ipc = s.ipc + e.2.2.2) ∧
  (∀ (s : State) (p : Bool) (c : VCtl) (m : Mode) (k ea : Word) (r : SRight),
    ea = m.ea k (if (Reg.vctl c).wide then 2 else 1) s → ((Reg.vctl c).wide = true → ea.odd = false) →
    leftRow (.ldVctl p c m k r) s fun t =>
      vctlHolds c (if (Reg.vctl c).wide then s.read64 0 ea else (s.read32 0 ea).setWidth 64) s t ∧
      (∀ j, t.ar j = arAfter (m.upd k (if (Reg.vctl c).wide then 2 else 1) s) s j) ∧
      RightFrame (some (.vctl c)) r s t ∧ sameMemory s t ∧ KeepsVctl c s t ∧
      t.ipc = s.ipc + (if m.long then 2 else 1))

/-- R355 to R364, R210, R212: the stores. Each row: instruction, effective address, update of the address register,
length. The spec's decisions, not the source's words: the value stored is that before the instruction, D32 (R212; entry
29); a word outside MemMap takes nothing, D3 (R230; entry 12); which registers a store accepts, D33 (entry 21);
wrapping, D5. -/
def Obligations.StoreRows : Prop :=
  ∀ (s : State) (p : Bool) (src : Reg) (a : Ix) (k st : Word) (r : SRight),
    st = (if src.wide then 2 else 1) →
    ∀ e ∈ ([(.stConst p src k r, k, none, 2),
        (.stAr p a src r, s.ar a, none, 1),
        (.stGr p a src r, s.gr a, none, 1),
        (.stArInc p a src r, s.ar a, some (a, s.ar a + st), 1),
        (.stDecAr p a src r, s.ar a - st, some (a, s.ar a - st), 1),
        (.stArIncGr p a src r, s.ar a, some (a, s.ar a + s.gr a), 1),
        (.stArAddGr p a src r, s.ar a + s.gr a, some (a, s.ar a + s.gr a), 1),
        (.stArSetGr p a src r, s.gr a, some (a, s.gr a), 1),
        (.stArSetConst p a src k r, k, some (a, k), 2),
        (.stArAddConst p a false src k r, s.ar a + k, some (a, s.ar a + k), 2),
        (.stArAddConst p a true src k r, s.ar a - k, some (a, s.ar a - k), 2)] :
        List (Instr × Word × Option (Ix × Word) × Word)),
    (src.wide = true → e.2.1.odd = false) →
    leftRow e.1 s fun t =>
      wordStored e.2.1 (s.readReg src).lo s t ∧
      (src.wide = true → wordStored (e.2.1 + 1) (s.readReg src).hi s t) ∧
      sameMemoryBut e.2.1 st.toNat s t ∧ (∀ j, t.ar j = arAfter e.2.2.1 s j) ∧
      RightFrame none r s t ∧ KeepsVector s t ∧ KeepsPeripherals s t ∧ t.ipc = s.ipc + e.2.2.2

/-- R380 to R383, R388: the pushes: a store at sp, which then moves up by the width of the source. Constructors
pushAr, pushGr, pushPair, stackOther. The spec's decisions: the direction of the stack, D2 (entry 31); the other
registers, D33 (entry 21); the value pushed is that before the instruction, D32 (R212; entry 29); a word outside MemMap
takes nothing, D3 (R230; entry 12). -/
def Obligations.PushRows : Prop :=
  ∀ (s : State) (p : Bool) (n : Ix) (x : Reg) (r : SRight),
    ∀ e ∈ ([(.pushAr p n r, .ar n), (.pushGr p n r, .gr n), (.pushPair p n r, .pair n),
        (.stackOther p false x r, x)] : List (Instr × Reg)),
    (e.2.wide = true → s.sp.odd = false) →
    leftRow e.1 s fun t =>
      wordStored s.sp (s.readReg e.2).lo s t ∧ (e.2.wide = true → wordStored (s.sp + 1) (s.readReg e.2).hi s t) ∧
      sameMemoryBut s.sp (if e.2.wide then 2 else 1) s t ∧
      t.sp = s.sp + (if e.2.wide then 2 else 1) ∧ (∀ j, j ≠ 7 → t.ar j = s.ar j) ∧
      RightFrame none r s t ∧ KeepsVector s t ∧ KeepsPeripherals s t ∧ t.ipc = s.ipc + 1

/-- R380, R384 to R388: the pops: sp moves down by the width of the destination, which takes what is there; `pop`
without a register moves sp down by PopDropWords (D2). Constructors popAr, popGr, popPair, stackOther, popDrop.
The spec's decisions: direction and PopDropWords, D2 (entries 9, 31); the other registers, D33 (entry 21); the value
popped wins over the update of sp, D32 (R212; entry 29); a popped pswr wins over the flags of the right part, D29 (R440;
entry 29); a popped timer is restarted, D21 (R116; entry 30); a read outside MemMap, D3 (R230; entry 12). What a pop into
a port counter does to a started transfer and to the note of DMA activity is the model's choice (entries 11, 19). -/
def Obligations.PopRows : Prop :=
  (∀ (s : State) (p : Bool) (n : Ix) (x : Reg) (st : Word) (r : SRight),
    ∀ e ∈ ([(.popAr p n r, .ar n), (.popGr p n r, .gr n), (.popPair p n r, .pair n),
        (.stackOther p true x r, x)] : List (Instr × Reg)),
    st = (if e.2.wide then 2 else 1) → (e.2.wide = true → s.sp.odd = false) →
    leftRow e.1 s fun t =>
      regHolds e.2 (if e.2.wide then s.read64 0 (s.sp - st) else (s.read32 0 (s.sp - st)).setWidth 64) s t ∧
      (arPart e.2 ≠ some 7 → t.sp = s.sp - st) ∧
      (∀ j, arPart e.2 ≠ some j → j ≠ 7 → t.ar j = s.ar j) ∧
      RightFrame (some e.2) r s t ∧ sameMemory s t ∧ keepsBut e.2 s t ∧ t.ipc = s.ipc + 1) ∧
  (∀ (s : State) (p : Bool) (r : SRight), leftRow (.popDrop p r) s fun t =>
    OnlyRegisters r s t ∧ t.sp = s.sp - s.params.popDropWords ∧ (∀ j, j ≠ 7 → t.ar j = s.ar j) ∧
      t.ipc = s.ipc + 1)

/-- R404, R410 to R426: the copies. Each row: instruction, destination, source; a 32-bit source goes to both halves
of a 64-bit destination. Constructors cpArAr to cpOther, rows 33 to 49. Which further registers a copy accepts is
the spec's decision D33 (entry 21); that a write to pswr wins over the flags of the right part is D29 (R440; entry 29),
that a write to a timer restarts it D21 (R116; entry 30). What a write to a port counter does to a started transfer and
to the note of DMA activity is the model's choice (entries 11, 19). -/
def Obligations.CopyRows : Prop :=
  ∀ (s : State) (p : Bool) (d n : Ix) (h : VHalf) (v : VReg) (q : SpecReg) (x : Special) (g : PReg) (dst src : Reg)
      (r : SRight),
    ∀ e ∈ ([(.cpArAr p d n r, .ar d, .ar n), (.cpGrAr p d n r, .gr d, .ar n), (.cpArGr p d n r, .ar d, .gr n),
        (.cpGrGr p d n r, .gr d, .gr n), (.cpPairPair p d n r, .pair d, .pair n),
        (.cpPairAr p d n r, .pair d, .ar n), (.cpPairGr p d n r, .pair d, .gr n),
        (.cpVHalfAr p h n r, .vctl (.half h), .ar n), (.cpVHalfGr p h n r, .vctl (.half h), .gr n),
        (.cpVRegAr p v n r, .vctl (.full v), .ar n), (.cpVRegGr p v n r, .vctl (.full v), .gr n),
        (.cpVRegPair p v n r, .vctl (.full v), .pair n),
        (.cpArSpec p d q r, .ar d, .special (.one q)), (.cpGrSpec p d q r, .gr d, .special (.one q)),
        (.cpPairSpec p d x r, .pair d, .special x), (.cpSpecPrim p x g r, .special x, g.reg),
        (.cpOther p dst src r, dst, src)] : List (Instr × Reg × Reg)),
    leftRow e.1 s fun t =>
      regHolds e.2.1 (if e.2.1.wide = true ∧ e.2.2.wide = false then
        Long.ofHalves (s.readReg e.2.2).lo (s.readReg e.2.2).lo else s.readReg e.2.2) s t ∧
      (∀ j, arPart e.2.1 ≠ some j → t.ar j = s.ar j) ∧
      RightFrame (some e.2.1) r s t ∧ sameMemory s t ∧ keepsBut e.2.1 s t ∧ t.ipc = s.ipc + 1

/-- R402, R36, R39: what a copy, a store or a push reads from each register; and R80: the value a read of intr
returns, field by field, a count field being open while its buffer is empty, and DMAR after DMA activity. The open bits
are free values of the model (entry 11). -/
def Obligations.RegisterReads : Prop :=
  (∀ (s : State) (n : Ix),
    (s.readReg (.ar n)).lo = s.ar n ∧ (s.readReg (.gr n)).lo = s.gr n ∧
    s.readReg (.pair n) = Long.ofHalves (s.ar n) (s.gr n) ∧
    s.readReg (.special (.two .icc0ica0)) = Long.ofHalves s.port0.icc s.port0.ica ∧
    s.readReg (.special (.two .icc1ica1)) = Long.ofHalves s.port1.icc s.port1.ica ∧
    s.readReg (.special (.two .occ0oca0)) = Long.ofHalves s.port0.occ s.port0.oca ∧
    s.readReg (.special (.two .occ1oca1)) = Long.ofHalves s.port1.occ s.port1.oca ∧
    s.readReg (.special (.two .t0t1)) = Long.ofHalves s.timer0.count s.timer1.count ∧
    (∀ e ∈ [(SpecReg.icc0, s.port0.icc), (.ica0, s.port0.ica), (.icc1, s.port1.icc), (.ica1, s.port1.ica),
        (.occ0, s.port0.occ), (.oca0, s.port0.oca), (.occ1, s.port1.occ), (.oca1, s.port1.oca),
        (.t0, s.timer0.count), (.t1, s.timer1.count), (.pswr, s.pswr), (.lmicr, s.lmicr), (.gmicr, s.gmicr),
        (.intr, s.intr)], (s.readReg (.special (.one e.1))).lo = e.2)) ∧
  (∀ s : State,
    s.intr.getLsbD 31 = s.gbs ∧ s.intr.getLsbD 30 = s.lbs ∧
    (s.dmaSeen = false → s.intr.extractLsb' 26 4 = 0b0011#4) ∧
    s.intr.getLsbD 25 = decide (s.port1.dir = .input) ∧ s.intr.getLsbD 24 = decide (s.port0.dir = .input) ∧
    s.intr.getLsbD 23 = decide (s.afifo ≠ []) ∧
    (s.afifo ≠ [] → s.afifo.length ≤ 32 → (s.intr.extractLsb' 18 5).toNat + 1 = s.afifo.length) ∧
    (s.ram ≠ [] → s.ram.length ≤ 32 → (s.intr.extractLsb' 13 5).toNat + 1 = s.ram.length) ∧
    s.intr.getLsbD 12 = decide (s.afifo = []) ∧ s.intr.getLsbD 11 = decide (s.afifo.length = 32) ∧
    s.intr.getLsbD 10 = decide (s.wfifo = []) ∧ s.intr.getLsbD 9 = decide (s.wfifo.length = 32) ∧
    s.intr.extractLsb' 0 9 = s.ireq)

/-- R404, R431 to R436: the constant loads; the constant goes to both halves of a 64-bit destination. Constructors
setAr, setGr, setPair, setSpec, setVHalf, setVReg. That pswr keeps bits 25:20 is derived in R440. The spec's decisions:
a write to pswr wins over the flags of the right part, D29 (R440; entry 29); a write to a timer restarts it, D21 (R116;
entry 30). What a write to a port counter does to a started transfer and to the note of DMA activity is the model's
choice (entries 11, 19). -/
def Obligations.ConstRows : Prop :=
  ∀ (s : State) (p : Bool) (d : Ix) (x : Special) (h : VHalf) (v : VReg) (k : Word) (r : SRight),
    ∀ e ∈ ([(.setAr p d k r, .ar d), (.setGr p d k r, .gr d), (.setPair p d k r, .pair d),
        (.setSpec p x k r, .special x), (.setVHalf p h k r, .vctl (.half h)),
        (.setVReg p v k r, .vctl (.full v))] : List (Instr × Reg)),
    leftRow e.1 s fun t =>
      regHolds e.2 (Long.ofHalves k k) s t ∧ (∀ j, arPart e.2 ≠ some j → t.ar j = s.ar j) ∧
      RightFrame (some e.2) r s t ∧ sameMemory s t ∧ keepsBut e.2 s t ∧ t.ipc = s.ipc + 2

/-- R451 to R460: the address modifications. Each row: instruction, destination, value, length. Wrapping is D5, the
subtracting form of R458 derived there. -/
def Obligations.AddrModRows : Prop :=
  ∀ (s : State) (p : Bool) (d n : Ix) (k : Word) (r : SRight),
    ∀ e ∈ ([(.amMovAr p d n r, s.ar n, 1), (.amMovGr p d n r, s.gr n, 1),
        (.amAddGr p d n r, s.ar n + s.gr n, 1), (.amAddConst p d n false k r, s.ar n + k, 2),
        (.amAddConst p d n true k r, s.ar n - k, 2), (.amSetConst p d k r, k, 2),
        (.amInc p d r, s.ar d + 1, 1), (.amDec p d r, s.ar d - 1, 1),
        (.amIncGr p d false r, s.ar d + s.gr d, 1), (.amIncGr p d true r, s.ar d - s.gr d, 1),
        (.amIncConst p d k r, s.ar d + k, 2), (.amDecConst p d k r, s.ar d - k, 2)] :
        List (Instr × Word × Word)),
    leftRow e.1 s fun t =>
      t.ar d = e.2.1 ∧ (∀ j, j ≠ d → t.ar j = s.ar j) ∧ OnlyRegisters r s t ∧ t.ipc = s.ipc + e.2.2

/-- R445, R446: `pswr set` and `pswr clear` complete, and the bits of K are set or cleared after the right part's flags
(D29), all 32 bits of them; every other bit, the general-purpose registers and the requests are what the right part alone
leaves, in the state `u` of an empty left part beside it. -/
def Obligations.PswrRows : Prop :=
  ∀ (s : State) (p : Bool) (k : Word) (r : SRight),
    ∀ e ∈ ([(.pswrSet p k r, fun old bit => old || bit), (.pswrClear p k r, fun old bit => old && !bit)] :
        List (Instr × (Bool → Bool → Bool))),
    leftRow e.1 s fun t => ∃ u, exec (.nul p r) s = .next u ∧
      (∀ n < 32, t.psw n = e.2 (u.psw n) (k.getLsbD n)) ∧ (∀ j, t.gr j = u.gr j) ∧ t.ireq = u.ireq ∧
      (∀ j, t.ar j = s.ar j) ∧ sameMemory s t ∧ KeepsVector s t ∧ KeepsPeripherals s t ∧ t.ipc = s.ipc + 2

/-! ### Control transfers -/

/-- R472, R480 to R486: `goto` and `skip`, not delayed, with any condition. Each row: instruction, target, length.
The base of `skip` is the spec's decision D7. -/
def Obligations.GotoRows : Prop :=
  ∀ (s : State) (p : Bool) (c : Cond) (n : Ix) (k : Word) (r : SRight),
    ∀ e ∈ ([(.gotoK p c false k r, k, 2), (.gotoAr p c false n r, s.ar n, 1), (.gotoGr p c false n r, s.gr n, 1),
        (.gotoArGr p c false n r, s.ar n + s.gr n, 1), (.gotoArK p c false n false k r, s.ar n + k, 2),
        (.gotoArK p c false n true k r, s.ar n - k, 2), (.skipK p c false k r, s.ipc + 2 + k, 2),
        (.skipGr p c false n r, s.ipc + 1 + s.gr n, 1)] : List (Instr × Word × Word)),
    leftRow e.1 s fun t =>
      t.ipc = (if c.holds s then e.2.1 else s.ipc + e.2.2) ∧ (∀ j, t.ar j = s.ar j) ∧ OnlyRegisters r s t ∧
      t.pending = none

/-- R472, R490 to R497: the calls, not delayed. Each row: instruction, target, length. A call that is taken pushes
the frame {pswr after the right part, return address} and jumps; one that is not taken does nothing. The frame is
the spec's decision D6, the base of `callrel` D7, the lost write outside MemMap D3 (entry 12). -/
def Obligations.CallRows : Prop :=
  ∀ (s : State) (p : Bool) (c : Cond) (n : Ix) (k : Word) (r : SRight),
    ∀ e ∈ ([(.callK p c false k r, k, 2), (.callAr p c false n r, s.ar n, 1), (.callGr p c false n r, s.gr n, 1),
        (.callArGr p c false n r, s.ar n + s.gr n, 1), (.callArK p c false n false k r, s.ar n + k, 2),
        (.callArK p c false n true k r, s.ar n - k, 2), (.callrelK p c false k r, s.ipc + 2 + k, 2),
        (.callrelGr p c false n r, s.ipc + 1 + s.gr n, 1)] : List (Instr × Word × Word)),
    (c.holds s = true → s.sp.odd = false →
      leftRow e.1 s fun t =>
        t.ipc = e.2.1 ∧ t.sp = s.sp + 2 ∧
        wordStored s.sp (s.ipc + e.2.2) s t ∧ wordStored (s.sp + 1) t.pswr s t ∧
        sameMemoryBut s.sp 2 s t ∧ (∀ j, j ≠ 7 → t.ar j = s.ar j) ∧
        RightFrame none r s t ∧ KeepsVector s t ∧ KeepsPeripherals s t ∧ t.pending = none) ∧
    (c.holds s = false →
      leftRow e.1 s fun t =>
        t.ipc = s.ipc + e.2.2 ∧ (∀ j, t.ar j = s.ar j) ∧ OnlyRegisters r s t ∧ t.pending = none)

/-- R472, R510, R512: `return` and `ireturn`, not delayed. A return that is taken pops the frame: ipc is restored,
and by `ireturn` also pswr but its bits 25:20; one that is not taken does nothing. Constructors ret, iret. The frame
and what is restored are the spec's decisions D6 and D14, the read outside MemMap is D3 (entry 12). -/
def Obligations.ReturnRows : Prop :=
  ∀ (s : State) (p : Bool) (c : Cond) (r : SRight),
    (c.holds s = true → s.sp.odd = false →
      (leftRow (.ret p c false r) s fun t =>
        t.ipc = (s.read64 65 (s.sp - 2)).lo ∧ t.sp = s.sp - 2 ∧ (∀ j, j ≠ 7 → t.ar j = s.ar j) ∧
        OnlyRegisters r s t ∧ t.pending = none) ∧
      (leftRow (.iret p c false r) s fun t =>
        t.ipc = (s.read64 65 (s.sp - 2)).lo ∧ t.sp = s.sp - 2 ∧ (∀ j, j ≠ 7 → t.ar j = s.ar j) ∧
        (∀ n < 32, t.psw n = if 20 ≤ n ∧ n ≤ 25 then s.psw n else (s.read64 65 (s.sp - 2)).hi.getLsbD n) ∧
        RightFrame (some (.special (.one .pswr))) r s t ∧ sameMemory s t ∧ KeepsVector s t ∧
        KeepsPeripherals s t ∧ t.pending = none)) ∧
    (c.holds s = false → ∀ e ∈ [Instr.ret p c false r, .iret p c false r],
      leftRow e s fun t =>
        t.ipc = s.ipc + 1 ∧ (∀ j, t.ar j = s.ar j) ∧ OnlyRegisters r s t ∧ t.pending = none)

/-- R472, R475, R478: every delayed transfer: the record (taken, kind, T, n) is made with one to three delayed
instructions, DelaySlots(instr, addr, lens), 1 by default, and execution goes on after it; `lens` are the lengths of the
instructions after it, as far as they decode. Each row: instruction, kind, target, length; a return has no target of
its own. And an instruction that is no delayed transfer leaves no record where there was none. The number is the spec's
parameter, D7; how the model holds it: entries 9, 18. -/
def Obligations.DelayedRows : Prop :=
  (∀ (s : State) (p : Bool) (c : Cond) (n : Ix) (k : Word) (r : SRight),
    ∀ e ∈ ([(.gotoK p c true k r, .jump, k, 2), (.gotoAr p c true n r, .jump, s.ar n, 1),
        (.gotoGr p c true n r, .jump, s.gr n, 1), (.gotoArGr p c true n r, .jump, s.ar n + s.gr n, 1),
        (.gotoArK p c true n false k r, .jump, s.ar n + k, 2), (.gotoArK p c true n true k r, .jump, s.ar n - k, 2),
        (.skipK p c true k r, .jump, s.ipc + 2 + k, 2), (.skipGr p c true n r, .jump, s.ipc + 1 + s.gr n, 1),
        (.callK p c true k r, .call, k, 2), (.callAr p c true n r, .call, s.ar n, 1),
        (.callGr p c true n r, .call, s.gr n, 1), (.callArGr p c true n r, .call, s.ar n + s.gr n, 1),
        (.callArK p c true n false k r, .call, s.ar n + k, 2), (.callArK p c true n true k r, .call, s.ar n - k, 2),
        (.callrelK p c true k r, .call, s.ipc + 2 + k, 2), (.callrelGr p c true n r, .call, s.ipc + 1 + s.gr n, 1),
        (.ret p c true r, .ret, 0, 1), (.iret p c true r, .iret, 0, 1)] :
        List (Instr × XferKind × Word × Word)),
    leftRow e.1 s fun t =>
      (∃ m, 1 ≤ m ∧ m ≤ 3 ∧
        m = slotsAt s.params.delaySlots ⟨e.1.code, s.ipc, s.lensFrom 3 (s.ipc + e.2.2.2)⟩ ∧
        (s.params.delaySlots = [] → m = 1) ∧ t.pending = some ⟨c.holds s, e.2.1, e.2.2.1, m⟩) ∧
      t.ipc = s.ipc + e.2.2.2 ∧ (∀ j, t.ar j = s.ar j) ∧ OnlyRegisters r { s with pending := t.pending } t) ∧
  (∀ (s : State) (m : Nat) (a w : Word) (i : Instr), decode (s.read32 66 a) w = .ok i →
    s.lensFrom (m + 1) a =
      (if i.code.low.long then 2 :: s.lensFrom m (a + 2) else 1 :: s.lensFrom m (a + 1))) ∧
  (∀ (i : Instr) (s t : State), exec i s = .next t → s.pending = none →
    (∀ p c x r k, i.code ≠ ⟨.scalar p (.xfer c true x) r, k⟩) → t.pending = none)

/-- R475: an instruction executed while a delayed transfer is pending does what it does without one (here: `u`, the
state it leaves when nothing is pending), and then the record counts down; with the last delayed instruction a
`goto` or `skip` that is taken jumps, a call pushes its frame and jumps, and one that is not taken ends without
effect. A call or return to be performed with odd sp is refused (R206). FIFO words that the instruction's own end clears
stay cleared, whatever pswr a delayed `ireturn` restores (R631, step 9). The record is the spec's decision D7 (entry
18), the frames are D6 and D14. -/
def Obligations.DelayCountdown : Prop :=
  ∀ (s u : State) (i : Instr) (q : Pending), s.pending = some q →
    (∀ p c d x r k, i.code ≠ ⟨.scalar p (.xfer c d x) r, k⟩) →
    exec i { s with pending := none } = .next u → s.stuck = false → u.stuck = false →
    (1 < q.n → exec i s = .next { u with pending := some { q with n := q.n - 1 } }) ∧
    (q.n ≤ 1 → q.taken = false → exec i s = .next u) ∧
    (q.n ≤ 1 → q.taken = true → q.kind = .jump → exec i s = .next { u with ipc := q.target }) ∧
    (q.n ≤ 1 → q.taken = true → q.kind = .call → u.sp.odd = false → ∃ t, exec i s = .next t ∧
      t.ipc = q.target ∧ t.sp = u.sp + 2 ∧ t.pending = none ∧
      wordStored u.sp u.ipc u t ∧ wordStored (u.sp + 1) u.pswr u t ∧ sameMemoryBut u.sp 2 u t ∧
      t.pswr = u.pswr ∧ (∀ j, j ≠ 7 → t.ar j = u.ar j) ∧ (∀ j, t.gr j = u.gr j) ∧ t.ireq = u.ireq ∧
      KeepsVector u t ∧ KeepsPeripherals u t) ∧
    (q.n ≤ 1 → q.taken = true → q.kind = .ret ∨ q.kind = .iret → u.sp.odd = false →
      u.backed (u.sp - 2) = true → u.backed (u.sp - 1) = true → ∃ t, exec i s = .next t ∧
      t.ipc = Memory.word u.mem (u.sp - 2) ∧ t.sp = u.sp - 2 ∧ t.pending = none ∧ sameMemory u t ∧
      (q.kind = .ret → t.pswr = u.pswr) ∧
      (q.kind = .iret → ∀ n < 32, t.psw n =
        if 20 ≤ n ∧ n ≤ 25 then u.psw n else (Memory.word u.mem (u.sp - 1)).getLsbD n) ∧
      (∀ j, j ≠ 7 → t.ar j = u.ar j) ∧ (∀ j, t.gr j = u.gr j) ∧ t.ireq = u.ireq ∧ KeepsVector u t ∧
      KeepsPeripherals u t) ∧
    (q.n ≤ 1 → q.taken = true → q.kind ≠ .jump → u.sp.odd = true → exec i s = .refused .oddLongAddress)

/-- R477 (a): among delayed instructions, a control transfer whose condition holds is refused by name, and one whose
condition does not hold does what an empty left part of its length does. The refusal is the spec's decision D7
(entry 20). -/
def Obligations.TransferInWindow : Prop :=
  ∀ (s : State) (i : Instr) (p d : Bool) (c : Cond) (x : Xfer) (r : SRight) (k : Word),
    i.code = ⟨.scalar p (.xfer c d x) r, k⟩ → s.pending.isSome = true → i.wellFormed = true →
    (i.code.low.long = true → s.ipc.odd = false) →
    (c.holds s = true → exec i s = .refused .transferInDelayWindow) ∧
    (c.holds s = false → exec i s = exec (if i.code.low.long then .nulK p k r else .nul p r) s)

/-! ### Scalar right parts -/

/-- R542, R544 to R547, R550 to R553, R558, R559: the adding class, in the standard and the noflags form. Each row:
instruction, A, X, carry in; V is a signed sum outside the range, C the carry out of bit 31. The formulas of V and C
are the spec's decision D8 (entry 28), the request SPR D22. -/
def Obligations.AddRows : Prop :=
  ∀ (s : State) (p nf : Bool) (l : SLeft) (k : Word) (d a b : Ix),
    ∀ e ∈ ([(.add p l k nf d a b, s.gr a, s.gr b, false), (.addTo p l k nf d b, s.gr d, s.gr b, false),
        (.inc p l k nf d a, s.gr a, 1, false), (.incSelf p l k nf d, s.gr d, 1, false),
        (.addC p l k nf d a, s.gr a, 0, s.psw 0), (.addBC p l k nf d a b, s.gr a, s.gr b, s.psw 0)] :
        List (Instr × Word × Word × Bool)),
    rightRow e.1 l k s fun t =>
      OperationPost l nf (some d) (e.2.1 + e.2.2.1 + BitVec.ofNat 32 e.2.2.2.toNat)
        (decide (e.2.1.toInt + e.2.2.1.toInt + e.2.2.2.toNat < -2 ^ 31 ∨
          2 ^ 31 ≤ e.2.1.toInt + e.2.2.1.toInt + e.2.2.2.toNat))
        (decide (2 ^ 32 ≤ e.2.1.toNat + e.2.2.1.toNat + e.2.2.2.toNat)) true s t

/-- R542 to R547, R554 to R557, R560 to R562: the subtracting class. Each row: instruction, A, X, carry in; the
result is A - X - 1 + carry in; V is a signed difference outside the range; C is the borrow, or with CarrySense =
notBorrow its complement. The formulas and CarrySense are the spec's decision D8 (entry 28), the request SPR D22. -/
def Obligations.SubRows : Prop :=
  ∀ (s : State) (p nf : Bool) (l : SLeft) (k : Word) (d a b : Ix),
    ∀ e ∈ ([(.sub p l k nf d a b, s.gr a, s.gr b, true), (.subFrom p l k nf d b, s.gr d, s.gr b, true),
        (.dec p l k nf d a, s.gr a, 1, true), (.decSelf p l k nf d, s.gr d, 1, true),
        (.subC p l k nf d a, s.gr a, 0, s.psw 0), (.subBC p l k nf d a b, s.gr a, s.gr b, s.psw 0),
        (.negGr p l k nf d a, 0, s.gr a, true)] : List (Instr × Word × Word × Bool)),
    rightRow e.1 l k s fun t =>
      OperationPost l nf (some d) (e.2.1 - e.2.2.1 - 1 + BitVec.ofNat 32 e.2.2.2.toNat)
        (decide (e.2.1.toInt - e.2.2.1.toInt - 1 + e.2.2.2.toNat < -2 ^ 31 ∨
          2 ^ 31 ≤ e.2.1.toInt - e.2.2.1.toInt - 1 + e.2.2.2.toNat))
        (match s.params.carrySense with
          | .borrow => decide ((e.2.1.toNat : Int) - e.2.2.1.toNat - 1 + e.2.2.2.toNat < 0)
          | .notBorrow => decide (0 ≤ (e.2.1.toNat : Int) - e.2.2.1.toNat - 1 + e.2.2.2.toNat)) true s t

/-- R542, R545, R547, R580 to R594: the logical operations, with V = C = 0. Each row: instruction, result. V = C = 0
is the spec's decision D8 (entry 28). -/
def Obligations.LogicRows : Prop :=
  ∀ (s : State) (p nf : Bool) (l : SLeft) (k A B : Word) (d a b : Ix), A = s.gr a → B = s.gr b →
    ∀ e ∈ ([(.orGr p l k nf d a b, A ||| B), (.andGr p l k nf d a b, A &&& B), (.xorGr p l k nf d a b, A ^^^ B),
        (.notGr p l k nf d a, ~~~A), (.notAorB p l k nf d a b, ~~~A ||| B), (.aOrNotB p l k nf d a b, A ||| ~~~B),
        (.copyGr p l k nf d a, A), (.notAorNotB p l k nf d a b, ~~~(A &&& B)),
        (.notAandB p l k nf d a b, ~~~A &&& B), (.aAndNotB p l k nf d a b, A &&& ~~~B),
        (.notAandNotB p l k nf d a b, ~~~(A ||| B)), (.notAxorB p l k nf d a b, ~~~(A ^^^ B)),
        (.aXorNotB p l k nf d a b, ~~~(A ^^^ B)), (.setFalse p l k nf d, 0), (.setTrue p l k nf d, 0xFFFFFFFF)] :
        List (Instr × Word)),
    rightRow e.1 l k s fun t => OperationPost l nf (some d) e.2 false false false s t

/-- R546, R577, R595 to R597: the flags-only forms. `gr + gr`, `gr` and `- gr` set the flags of their result and
write no register; the flags-only form of any expression does what its standard form does, but for the destination,
and for the number of delayed instructions beside a delayed transfer, a parameter of the instruction (entry 9). Constructors addFlags,
testGr, testNeg, testExpr. The formulas are those of D8 (entry 28). -/
def Obligations.FlagsOnlyRows : Prop :=
  (∀ (s : State) (p : Bool) (l : SLeft) (k : Word) (a b : Ix),
    (rightRow (.addFlags p l k a b) l k s fun t =>
      OperationPost l false none (s.gr a + s.gr b)
        (decide ((s.gr a).toInt + (s.gr b).toInt < -2 ^ 31 ∨ 2 ^ 31 ≤ (s.gr a).toInt + (s.gr b).toInt))
        (decide (2 ^ 32 ≤ (s.gr a).toNat + (s.gr b).toNat)) true s t) ∧
    (rightRow (.testGr p l k a) l k s fun t => OperationPost l false none (s.gr a) false false false s t) ∧
    (s.params.carrySense = .borrow → rightRow (.testNeg p l k a) l k s fun t =>
      OperationPost l false none (0 - s.gr a) (decide (s.gr a = 0x80000000)) (decide (s.gr a ≠ 0)) true s t)) ∧
  (∀ (s : State) (p q : Bool) (l : SLeft) (k : Word) (fn : AluFn) (a b d : Ix) (i : Instr),
    i.code = ⟨.scalar q l (.alu (.std d) fn a b), l.constOf k⟩ → l.grWrite ≠ some d →
    rightRow (.testExpr p l k fn a b) l k s fun t =>
      (∀ j, l.grWrite ≠ some j → t.gr j = s.gr j) ∧
      ∃ v q, exec i s = .next ({ t with pending := q }.setGr d v) ∧ sameRecord l s t.pending q)

/-- R598, R599: `true` and `false` without a destination: the four flags, and exactly the conditions that then hold. -/
def Obligations.TrueFalseRows : Prop :=
  ∀ (s : State) (p : Bool) (l : SLeft) (k : Word), keepsPswr l = true →
    (rightRow (.flagsTrue p l k) l k s fun t => t.flags = 0b1000#4 ∧
      (∀ j, l.grWrite ≠ some j → t.gr j = s.gr j) ∧
      ∀ c, c.holds t = true ↔ c ∈ [Cond.always, .lt, .le, .ne0, .uge, .notCarry, .vfalse, .vlt, .vle]) ∧
    (rightRow (.flagsFalse p l k) l k s fun t => t.flags = 0b0100#4 ∧
      (∀ j, l.grWrite ≠ some j → t.gr j = s.gr j) ∧
      ∀ c, c.holds t = true ↔ c ∈ [Cond.always, .eq0, .ge, .le, .uge, .notCarry, .vfalse, .vge, .vle])

/-- R601 to R607, R542: the shifts and rotates by 1 to 31. Each row: instruction, kind, amount, result, last bit
shifted out; V is ShiftOverflow. ShiftOverflow is a parameter (D8, entry 9). -/
def Obligations.ShiftRows : Prop :=
  ∀ (s : State) (p : Bool) (l : SLeft) (k A : Word) (d a : Ix) (n : Fin 33), 1 ≤ n.val → n.val ≤ 31 → A = s.gr a →
    ∀ e ∈ ([(.shl p l k d a n, .shl, n, A <<< n.val, A.getLsbD (32 - n.val)),
        (.shr p l k d a n, .shr, n, A >>> n.val, A.getLsbD (n.val - 1)),
        (.sar p l k d a n, .sar, n, A.sshiftRight n.val, A.getLsbD (n.val - 1)),
        (.rol p l k d a n, .rol, n, A.rotateLeft n.val, A.getLsbD (32 - n.val)),
        (.ror p l k d a n, .ror, n, A.rotateRight n.val, A.getLsbD (n.val - 1)),
        (.rcl p l k d a, .rcl, 1, A <<< 1 ||| (if s.psw 0 then 1 else 0), A.getLsbD 31),
        (.rcr p l k d a, .rcr, 1, A >>> 1 ||| (if s.psw 0 then 0x80000000 else 0), A.getLsbD 0)] :
        List (Instr × ShiftKind × Fin 33 × Word × Bool)),
    rightRow e.1 l k s fun t =>
      OperationPost l false (some d) e.2.2.2.1 (s.params.shiftOverflow.contains (e.2.1, A, e.2.2.1)) e.2.2.2.2
        false s t

/-- R600, R549: a shift by 0 or 32, of any type, is no operation: the instruction `i` does what the one with its right
part omitted, `j`, does, but for the number of delayed instructions beside a delayed transfer: that the two are different
arguments of the parameter DelaySlots is the model's choice (entries 9, 37). -/
def Obligations.ShiftByZero : Prop :=
  ∀ (s : State) (p : Bool) (l : SLeft) (k : Word) (kind : ShiftKind) (d a : Ix) (n : Fin 33) (i j : Instr),
    n.val = 0 ∨ n.val = 32 → i.code = ⟨.scalar p l (.shift kind d a n), k⟩ → j.code = ⟨.scalar p l .nul, k⟩ →
    ((∀ c x, l ≠ .xfer c true x) → exec i s = exec j s) ∧
    (∀ t, exec j s = .next t → ∃ q, exec i s = .next { t with pending := q } ∧ sameRecord l s t.pending q) ∧
    (∀ e, exec j s = .refused e → exec i s = .refused e)

/-- R575, R576: the multiply steps: (gr[d], gr7, flags) are what the parameters MulFirstStep and MulNextStep give, flags
only without noflags; no request. The order of the two writes is open when d is 7 (entry 10). Constructors mulFirst,
mulNext. -/
def Obligations.MulRows : Prop :=
  ∀ (s : State) (p nf : Bool) (l : SLeft) (k : Word) (d a : Ix),
    ∀ e ∈ ([(.mulFirst p l k nf d a, true, Config.mulFirstStep (s.gr a) (s.gr 7) s.flags),
        (.mulNext p l k nf d a, false, Config.mulNextStep (s.gr a) (s.gr 7) s.flags)] :
        List (Instr × Bool × Word × Word × BitVec 4)),
    rightRow e.1 l k s fun t =>
      (d ≠ 7 → t.gr d = e.2.2.1 ∧ t.gr 7 = e.2.2.2.1) ∧
      (d = 7 → t.gr 7 = Config.mulOnGr7 e.2.1 (s.gr a) (s.gr 7) s.flags) ∧
      (∀ j, j ≠ d → j ≠ 7 → l.grWrite ≠ some j → t.gr j = s.gr j) ∧
      (keepsPswr l = true → t.flags = (if nf then s.flags else e.2.2.2.2) ∧ ∀ n, 4 ≤ n → t.psw n = s.psw n) ∧
      t.ireq = s.ireq

/-! ### The data path of the Vector Unit -/

/-- R128, R133, R135: where elements end: under `SplitF(f)` at bit i when f[i] = 1 and f[i+1] = 0, under
`SplitNB(nb)` at every bit that is 1, under `SplitSB(s)` before bit 2j where s[j] = 1; and at bit 63. The elements
cover the 64 bits, one after another. That bit 63 always ends an element is the spec's decision D24 (entry 34). -/
def Obligations.SplitElements : Prop :=
  ∀ (f nb : Long) (sb : Word),
    (∀ i < 64, (∃ e ∈ splitF f, e.1 + e.2 = i + 1) ↔ (f.getLsbD i = true ∧ f.getLsbD (i + 1) = false) ∨ i = 63) ∧
    (∀ i < 64, (∃ e ∈ splitNB nb, e.1 + e.2 = i + 1) ↔ nb.getLsbD i = true ∨ i = 63) ∧
    (∀ i < 64, (∃ e ∈ splitSB sb, e.1 + e.2 = i + 1) ↔ (∃ j, i + 1 = 2 * j ∧ sb.getLsbD j = true) ∨ i = 63) ∧
    (∀ es ∈ [splitF f, splitNB nb, splitSB sb],
      (∀ b < 64, ∃! e, e ∈ es ∧ e.1 ≤ b ∧ b < e.1 + e.2) ∧ es.Pairwise (fun d e => d.1 + d.2 ≤ e.1) ∧
      ∀ e ∈ es, 0 < e.2 ∧ e.1 + e.2 ≤ 64)

/-- R703, R700: element-wise addition and subtraction modulo the range of each element of `SplitNB(nb2)`, with no
carry into a neighbour; and the one device has 1 in every element. An element at the top of the word without a bit
of nb2 is D24 (entry 34). -/
def Obligations.AddSubElements : Prop :=
  ∀ (nb a b : Long) (e : Nat × Nat), e ∈ splitNB nb →
    field (addNB nb a b) e = (field a e + field b e) % 2 ^ e.2 ∧
    (field (subNB nb a b) e : Int) = ((field a e : Int) - field b e) % 2 ^ e.2 ∧
    field (oneDevice nb) e = 1

/-- R129, R130: what the activation functions do to an element of `SplitF(f)`: Threshold gives all ones to a
negative element and 0 to another; Saturate, with k ones of f in an element of n bits, clamps its signed value to n
- k bits and a sign, and leaves an element without ones alone. The case without ones is the spec's decision D31
(entry 34). -/
def Obligations.ActivationElements : Prop :=
  ∀ (f v : Long) (e : Nat × Nat), e ∈ splitF f →
    signedField (threshold f v) e = (if signedField v e < 0 then -1 else 0) ∧
    signedField (saturate f v) e =
      if onesIn f e.1 e.2 = 0 then signedField v e
      else max (-2 ^ (e.2 - onesIn f e.1 e.2)) (min (2 ^ (e.2 - onesIn f e.1 e.2) - 1) (signedField v e))

/-- R760: each column of a weighted accumulation, modulo its range: the element of path Y plus the sum over the rows
of the signed element of path X times the weight. The arithmetic is the spec's decision D23 (entry 34). -/
def Obligations.WeightedElements : Prop :=
  ∀ (nb : Long) (sb : Word) (wa : List Long) (x y : Long) (col : Nat × Nat), col ∈ splitNB nb →
    (field (weighted nb sb wa x y) col : Int) =
      ((field y col : Int) +
        (List.zipWith (fun row w => signedField x row * (field w col : Int)) (splitSB sb) wa).sum) % 2 ^ col.2

/-- R211: a vector memory mode is applied once per repetition, in order, each time as the scalar mode with an access
step of 2: the address of repetition k is that of the mode after k uses, and the update that of all the uses. -/
def Obligations.VModeSteps : Prop :=
  ∀ (m : VMode) (s : State) (k : Nat),
    m.ea k s = (vmodeScalar m).ea 0 2 (afterUses m k s) ∧
    (∀ j, (afterUses m (k + 1) s).ar j = arAfter (m.upd (k + 1) s) s j)

/-! ### Vector left parts -/

/-- R640 to R651, R675 to R677, R211, R631: the vector loads, with or without `ftw` and `wtw`, beside any right
part. Each row: instruction, buffer, mode, `ftw`, `wtw`. ram takes the words read, wfifo gets them added, data keeps
nothing. What is asked of addresses is the spec's decision D30 (entry 20), the read outside MemMap D3 (entry 12). -/
def Obligations.VLoadRows : Prop :=
  ∀ (s : State) (p f w : Bool) (n : Rep) (a : Ix) (b : LBuf) (m : VMode) (r : VRight),
    ∀ e ∈ ([(.vLdData p n m f w r, .data, m, f, w), (.vLdRam p n m f w r, .ram, m, f, w),
        (.vLdWfifo p n m f w r, .wfifo, m, f, w), (.vLdAr p n b a f w r, b, .ar a, f, w),
        (.vLdGr p n b a f w r, b, .gr a, f, w), (.vLdArSetGr p n b a f w r, b, .arSetGr a, f, w),
        (.vLdArInc p n b a f w r, b, .arInc a, f, w), (.vLdDecAr p n b a f w r, b, .decAr a, f, w),
        (.vLdArIncGr p n b a f w r, b, .arIncGr a, f, w), (.vLdArAddGr p n b a f w r, b, .arAddGr a, f, w),
        (.wfifoLd p n m r, .wfifo, m, false, false), (.wfifoLdFtw p n m r, .wfifo, m, true, false),
        (.wfifoLdFtwWtw p n m r, .wfifo, m, true, true)] : List (Instr × LBuf × VMode × Bool × Bool)),
    vectorRow e.1 n ⟨.load e.2.1 e.2.2.1, e.2.2.2.1, e.2.2.2.2⟩ r s fun t =>
      t.ram = (if e.2.1 = .ram then words n fun k => s.read64 k (e.2.2.1.ea k s) else s.ram) ∧
      WeightsAfter e.2.2.2.1 e.2.2.2.2
        (if e.2.1 = .wfifo then s.wfifo ++ words n (fun k => s.read64 k (e.2.2.1.ea k s)) else s.wfifo) s t ∧
      (∀ j, t.ar j = arAfter (e.2.2.1.upd (n.val + 1) s) s j) ∧
      (r = .none → afifoHolds s.afifo t) ∧ sameMemory s t ∧ VectorFrame s t

/-- R655, R656, R660 to R667, R211, R631: the vector stores, beside any right part. Each row: instruction, mode,
copy to ram. Word k of afifo goes to the address of repetition k; of several words stored to one address the last
stays. What is asked of addresses is the spec's decision D30 (entry 20), the lost write outside MemMap D3 (entry 12). -/
def Obligations.VStoreRows : Prop :=
  ∀ (s : State) (p f w : Bool) (n : Rep) (a : Ix) (m : VMode) (r : VRight),
    ∀ e ∈ ([(.vSt p n m f w r, m, false), (.vStRam p n m f w r, m, true), (.vStAr p n a f w r, .ar a, false),
        (.vStGr p n a f w r, .gr a, false), (.vStArSetGr p n a f w r, .arSetGr a, false),
        (.vStArInc p n a f w r, .arInc a, false), (.vStDecAr p n a f w r, .decAr a, false),
        (.vStArIncGr p n a f w r, .arIncGr a, false), (.vStArAddGr p n a f w r, .arAddGr a, false),
        (.vStRamCopy p n m f w r, m, true)] : List (Instr × VMode × Bool)),
    vectorRow e.1 n ⟨.store e.2.1 e.2.2, f, w⟩ r s fun t =>
      (∀ k ≤ n.val, (∀ j, k < j → j ≤ n.val → e.2.1.ea j s ≠ e.2.1.ea k s) →
        wordStored (e.2.1.ea k s) (s.afifo.getD k 0).lo s t ∧
        wordStored (e.2.1.ea k s + 1) (s.afifo.getD k 0).hi s t) ∧
      (∀ x, (∀ k ≤ n.val, ∀ d < 2, ∀ j < 4, x ≠ byteAddr (e.2.1.ea k s + BitVec.ofNat 32 d) j) →
        Memory.byteAt t.mem x = Memory.byteAt s.mem x) ∧
      t.ram = (if e.2.2 then s.afifo else s.ram) ∧ WeightsAfter f w s.wfifo s t ∧
      (∀ j, t.ar j = arAfter (e.2.1.upd (n.val + 1) s) s j) ∧ (r = .none → afifoHolds [] t) ∧ VectorFrame s t

/-- R670, R681, R685: left parts without a memory access, beside any right part; R705: an omitted right part leaves
afifo to the left part. R680, R685, R687, R690: the instructions without a repetition count: `vnul`, `wtw`, and `ftw`
and `ftw, wtw` with enough words in wfifo. Each row: instruction, `ftw`, `wtw`. Constructors vNoLeft, ftwWith, wtw,
vNoRight, vnul, ftw, ftwWtw. -/
def Obligations.VEmptyRows : Prop :=
  (∀ (s : State) (p w : Bool) (n : Rep) (r : VRight),
    ∀ e ∈ ([(.vNoLeft p n r, false, false), (.ftwWith p n w r, true, w), (.wtw p (some (n, r)), false, true)] :
        List (Instr × Bool × Bool)),
    vectorRow e.1 n ⟨.none, e.2.1, e.2.2⟩ r s fun t =>
      t.ram = s.ram ∧ WeightsAfter e.2.1 e.2.2 s.wfifo s t ∧ (∀ j, t.ar j = s.ar j) ∧
      (r = .none → afifoHolds s.afifo t) ∧ sameMemory s t ∧ VectorFrame s t) ∧
  (∀ (s : State) (p : Bool) (n : Rep) (l : VLeft), vectorRow (.vNoRight p n l) n l .none s fun t =>
    afifoHolds (match l.mem with | .store _ _ => [] | .load _ _ | .none => s.afifo) t ∧ VectorFrame s t) ∧
  (∀ (s : State) (p : Bool), s.pending = none →
    ∀ e ∈ ([(.vnul p, false, false), (.wtw p none, false, true), (.ftw p, true, false), (.ftwWtw p, true, true)] :
        List (Instr × Bool × Bool)),
    (e.2.1 = true → rows s.sb1 ≤ s.wfifo.length ∧ s.wfifo.length ≤ 32) →
    completes e.1 s fun t =>
      WeightsAfter e.2.1 e.2.2 s.wfifo s t ∧ afifoHolds s.afifo t ∧ t.ram = s.ram ∧ (∀ j, t.ar j = s.ar j) ∧
      sameMemory s t ∧ VectorFrame s t)

/-! ### Vector right parts -/

/-- R720 to R732, R771 to R776: the logical operations; `activate` applies Threshold with f1cr to X and with f2cr to Y
before anything else (R770). Each row: instruction, right part, word k of the result. -/
def Obligations.VLogicRows : Prop :=
  ∀ (s : State) (p : Bool) (n : Rep) (l : VLeft) (x y : VSrc) (X Y TX TY : Nat → Long),
    X = operand s l n x → Y = operand s l n y →
    (∀ k, TX k = threshold s.f1cr (X k)) → (∀ k, TY k = threshold s.f2cr (Y k)) →
    ∀ e ∈ ([(.vOr p n l x y, .logic .or false false ⟨false, x⟩ ⟨false, y⟩, fun k => X k ||| Y k),
        (.vAnd p n l x y, .logic .and false false ⟨false, x⟩ ⟨false, y⟩, fun k => X k &&& Y k),
        (.vXor p n l x y, .logic .xor false false ⟨false, x⟩ ⟨false, y⟩, fun k => X k ^^^ Y k),
        (.vNot p n l x, .logic .or true false ⟨false, x⟩ ⟨false, .null⟩, fun k => ~~~X k),
        (.vNotOr p n l x y, .logic .or true false ⟨false, x⟩ ⟨false, y⟩, fun k => ~~~X k ||| Y k),
        (.vOrNot p n l x y, .logic .or false true ⟨false, x⟩ ⟨false, y⟩, fun k => X k ||| ~~~Y k),
        (.vNotOrNot p n l x y, .logic .or true true ⟨false, x⟩ ⟨false, y⟩, fun k => ~~~(X k &&& Y k)),
        (.vNotAnd p n l x y, .logic .and true false ⟨false, x⟩ ⟨false, y⟩, fun k => ~~~X k &&& Y k),
        (.vAndNot p n l x y, .logic .and false true ⟨false, x⟩ ⟨false, y⟩, fun k => X k &&& ~~~Y k),
        (.vNotAndNot p n l x y, .logic .and true true ⟨false, x⟩ ⟨false, y⟩, fun k => ~~~(X k ||| Y k)),
        (.vNotXor p n l x y, .logic .xor true false ⟨false, x⟩ ⟨false, y⟩, fun k => ~~~(X k ^^^ Y k)),
        (.vFalse p n l, .fill false, fun _ => 0),
        (.vTrue p n l, .fill true, fun _ => 0xFFFFFFFFFFFFFFFF),
        (.vActXOr p n l x y, .logic .or false false ⟨true, x⟩ ⟨false, y⟩, fun k => TX k ||| Y k),
        (.vNotActXAnd p n l x y, .logic .and true false ⟨true, x⟩ ⟨false, y⟩, fun k => ~~~TX k &&& Y k),
        (.vOrActY p n l x y, .logic .or false false ⟨false, x⟩ ⟨true, y⟩, fun k => X k ||| TY k),
        (.vAndNotActY p n l x y, .logic .and false true ⟨false, x⟩ ⟨true, y⟩, fun k => X k &&& ~~~TY k),
        (.vActXXorActY p n l x y, .logic .xor false false ⟨true, x⟩ ⟨true, y⟩, fun k => TX k ^^^ TY k),
        (.vNotActXAndNotActY p n l x y, .logic .and true true ⟨true, x⟩ ⟨true, y⟩, fun k => ~~~(TX k ||| TY k))] :
        List (Instr × VRight × (Nat → Long))),
    vectorRow e.1 n l e.2.1 s fun t => afifoHolds (words n e.2.2) t ∧ VectorFrame s t

/-- R735 to R741, R781 to R783: the arithmetic operations; `activate` applies Saturate (R770). Each row: instruction, right
part, word k of the result. -/
def Obligations.VArithRows : Prop :=
  ∀ (s : State) (p : Bool) (n : Rep) (l : VLeft) (x y : VSrc) (X Y SX SY : Nat → Long),
    X = operand s l n x → Y = operand s l n y →
    (∀ k, SX k = saturate s.f1cr (X k)) → (∀ k, SY k = saturate s.f2cr (Y k)) →
    ∀ e ∈ ([(.vAdd p n l x y, .arith false ⟨false, x⟩ ⟨false, y⟩, fun k => addNB s.nb2 (X k) (Y k)),
        (.vSub p n l x y, .arith true ⟨false, x⟩ ⟨false, y⟩, fun k => subNB s.nb2 (X k) (Y k)),
        (.vNegY p n l y, .arith true ⟨false, .null⟩ ⟨false, y⟩, fun k => subNB s.nb2 0 (Y k)),
        (.vInc p n l x, .arith false ⟨false, x⟩ ⟨false, .one⟩, fun k => addNB s.nb2 (X k) (oneDevice s.nb2)),
        (.vOne p n l, .arith false ⟨false, .null⟩ ⟨false, .one⟩, fun _ => addNB s.nb2 0 (oneDevice s.nb2)),
        (.vDec p n l x, .arith true ⟨false, x⟩ ⟨false, .one⟩, fun k => subNB s.nb2 (X k) (oneDevice s.nb2)),
        (.vMinusOne p n l, .arith true ⟨false, .null⟩ ⟨false, .one⟩, fun _ => subNB s.nb2 0 (oneDevice s.nb2)),
        (.vActXAdd p n l x y, .arith false ⟨true, x⟩ ⟨false, y⟩, fun k => addNB s.nb2 (SX k) (Y k)),
        (.vSubActY p n l x y, .arith true ⟨false, x⟩ ⟨true, y⟩, fun k => subNB s.nb2 (X k) (SY k)),
        (.vActXAddActY p n l x y, .arith false ⟨true, x⟩ ⟨true, y⟩, fun k => addNB s.nb2 (SX k) (SY k))] :
        List (Instr × VRight × (Nat → Long))),
    vectorRow e.1 n l e.2.1 s fun t => afifoHolds (words n e.2.2) t ∧ VectorFrame s t

/-- R750, R751, R777 to R780, R702: the mask operations: X where the mask is 1, Y where it is 0, each masked first, then
activated by Threshold, then X rotated by `shift`. Each row: instruction, right part, word k of the result. -/
def Obligations.VMaskRows : Prop :=
  ∀ (s : State) (p : Bool) (n : Rep) (l : VLeft) (b : Buf) (x y : VSrc) (M X Y TX TY : Nat → Long),
    M = operand s l n (.buf b) →
    (∀ k, X k = operand s l n x k &&& M k) → (∀ k, Y k = operand s l n y k &&& ~~~M k) →
    (∀ k, TX k = threshold s.f1cr (X k)) → (∀ k, TY k = threshold s.f2cr (Y k)) →
    ∀ e ∈ ([(.vMask p n l b x y, .mask b false ⟨false, x⟩ ⟨false, y⟩, fun k => X k ||| Y k),
        (.vMaskShift p n l b x y, .mask b true ⟨false, x⟩ ⟨false, y⟩, fun k => (X k).rotateRight 1 ||| Y k),
        (.vMaskActX p n l b x y, .mask b false ⟨true, x⟩ ⟨false, y⟩, fun k => TX k ||| Y k),
        (.vMaskActY p n l b x y, .mask b false ⟨false, x⟩ ⟨true, y⟩, fun k => X k ||| TY k),
        (.vMaskActXY p n l b x y, .mask b false ⟨true, x⟩ ⟨true, y⟩, fun k => TX k ||| TY k),
        (.vMaskShiftActX p n l b x y, .mask b true ⟨true, x⟩ ⟨false, y⟩, fun k => (TX k).rotateRight 1 ||| Y k)] :
        List (Instr × VRight × (Nat → Long))),
    vectorRow e.1 n l e.2.1 s fun t => afifoHolds (words n e.2.2) t ∧ VectorFrame s t

/-- R760 to R764, R784 to R787: the weighted accumulations; M masks X, and its complement Y, where it stands (`X1`,
`Y1`; with `c` also an optional mask), then `activate` applies Saturate, then X is rotated by `shift`. Each row:
instruction, right part, word k of the result. The arithmetic is the spec's decision D23, the refusal of a row
mismatch with it (entries 20, 34). -/
def Obligations.VSumRows : Prop :=
  ∀ (s : State) (p : Bool) (n : Rep) (l : VLeft) (b : Buf) (c : Option Buf) (x y : VSrc)
      (M X Y X1 Y1 X2 Y2 : Nat → Long),
    M = operand s l n (.buf b) → X = operand s l n x → Y = operand s l n y →
    (∀ k, X1 k = X k &&& M k) → (∀ k, Y1 k = Y k &&& ~~~M k) →
    (∀ k, X2 k = match c with | none => X k | some m => X k &&& operand s l n (.buf m) k) →
    (∀ k, Y2 k = match c with | none => Y k | some m => Y k &&& ~~~operand s l n (.buf m) k) →
    ∀ e ∈ ([(.vSum0 p n l x, .vsum none false ⟨false, x⟩ ⟨false, .null⟩, fun k => (X k, 0)),
        (.vSumY p n l x y, .vsum none false ⟨false, x⟩ ⟨false, y⟩, fun k => (X k, Y k)),
        (.vSumMask p n l b x y, .vsum (some b) false ⟨false, x⟩ ⟨false, y⟩, fun k => (X1 k, Y1 k)),
        (.vSumShift p n l c x y, .vsum c true ⟨false, x⟩ ⟨false, y⟩, fun k => ((X2 k).rotateRight 1, Y2 k)),
        (.vSumActX p n l x y, .vsum none false ⟨true, x⟩ ⟨false, y⟩, fun k => (saturate s.f1cr (X k), Y k)),
        (.vSumActY p n l x y, .vsum none false ⟨false, x⟩ ⟨true, y⟩, fun k => (X k, saturate s.f2cr (Y k))),
        (.vSumMaskActXY p n l b x y, .vsum (some b) false ⟨true, x⟩ ⟨true, y⟩,
          fun k => (saturate s.f1cr (X1 k), saturate s.f2cr (Y1 k))),
        (.vSumShiftActX p n l x, .vsum none true ⟨true, x⟩ ⟨false, .null⟩,
          fun k => ((saturate s.f1cr (X k)).rotateRight 1, 0))] :
        List (Instr × VRight × (Nat → Long × Long))),
    vectorRow e.1 n l e.2.1 s fun t =>
      afifoHolds (words n fun k => weighted s.nb2 s.sb2 s.wa (e.2.2 k).1 (e.2.2 k).2) t ∧ VectorFrame s t

/-- R788, R701: every other operation with `activate` in any position, masked, shifted and complemented or not. Each
row: right part, word k of the result. And R790: `store vregs`: the five words in afifo, f2cr at the head; the odd
bits of the image of sb are sb1, the even bits sb2. Constructors vAnyActivated, storeVregs. The words of `store
vregs` are the spec's decision D27 (entry 34). -/
def Obligations.VOtherRows : Prop :=
  (∀ (s : State) (p nx ny sub sh ax ay : Bool) (n : Rep) (l : VLeft) (op : VLogOp) (b : Buf) (x y : VSrc)
      (M X Y : Nat → Long),
    M = operand s l n (.buf b) → X = operand s l n x → Y = operand s l n y →
    ∀ e ∈ ([(.logic op nx ny ⟨ax, x⟩ ⟨ay, y⟩, fun k =>
          let u := if ax then threshold s.f1cr (X k) else X k
          let v := if ay then threshold s.f2cr (Y k) else Y k
          let u := if nx then ~~~u else u
          let v := if ny then ~~~v else v
          match op with | .or => u ||| v | .and => u &&& v | .xor => u ^^^ v),
        (.arith sub ⟨ax, x⟩ ⟨ay, y⟩, fun k =>
          let u := if ax then saturate s.f1cr (X k) else X k
          let v := if ay then saturate s.f2cr (Y k) else Y k
          if sub then subNB s.nb2 u v else addNB s.nb2 u v),
        (.mask b sh ⟨ax, x⟩ ⟨ay, y⟩, fun k =>
          let u := if ax then threshold s.f1cr (X k &&& M k) else X k &&& M k
          let v := if ay then threshold s.f2cr (Y k &&& ~~~M k) else Y k &&& ~~~M k
          (if sh then u.rotateRight 1 else u) ||| v),
        (.vsum (some b) sh ⟨ax, x⟩ ⟨ay, y⟩, fun k =>
          let u := if ax then saturate s.f1cr (X k &&& M k) else X k &&& M k
          let v := if ay then saturate s.f2cr (Y k &&& ~~~M k) else Y k &&& ~~~M k
          weighted s.nb2 s.sb2 s.wa (if sh then u.rotateRight 1 else u) v),
        (.vsum none sh ⟨ax, x⟩ ⟨ay, y⟩, fun k =>
          let u := if ax then saturate s.f1cr (X k) else X k
          let v := if ay then saturate s.f2cr (Y k) else Y k
          weighted s.nb2 s.sb2 s.wa (if sh then u.rotateRight 1 else u) v)] : List (VRight × (Nat → Long))),
    vectorRow (.vAnyActivated p n l e.1) n l e.1 s fun t => afifoHolds (words n e.2) t ∧ VectorFrame s t) ∧
  (∀ (s : State) (p : Bool) (l : VLeft),
    vectorRow (.storeVregs p 4 l) 4 l .storeRegs s fun t =>
      VectorFrame s t ∧ ∃ sb : Long, afifoHolds [s.f2cr, s.f1cr, s.nb2, sb, s.vr] t ∧
        ∀ j < 32, sb.getLsbD (2 * j + 1) = s.sb1.getLsbD j ∧ sb.getLsbD (2 * j) = s.sb2.getLsbD j)

/-- R715, R803: an incorrect vector instruction: when one of V1 to V6 holds it acts as `vnul` and requests VPR, and
nothing else changes; when none holds it is not treated so. V1 to V6 are the spec's decision D25 (entry 34). -/
def Obligations.VectorChecks : Prop :=
  ∀ (s : State) (i : Instr) (p : Bool) (n : Rep) (l : VLeft) (r : VRight) (readsA : Prop),
    i.code = ⟨.vector p n l r, 0⟩ →
    (readsA ↔ r.reads .afifo = true ∨ ∃ m c, l.mem = .store m c) →
    (s.vectorError (n.val + 1) l.mem r = true ↔
      (r.reads .data = true ∧ ¬ ∃ b m, l.mem = .load b m) ∨
      (readsA ∧ s.afifo.length = 0) ∨
      (readsA ∧ s.afifo.length ≠ n.val + 1) ∨
      (r ≠ .none ∧ s.afifo.length ≠ 0 ∧ ¬ readsA) ∨
      (r.reads .ram = true ∧ (s.ram.length = 0 ∨ s.ram.length ≠ n.val + 1)) ∨
      (r.reads .ram = true ∧ ((∃ m, l.mem = .load .ram m) ∨ ∃ m, l.mem = .store m true))) ∧
    (vectorDefect n l r = none → s.wfifoBlocks (l.mem.wfifoLoad (n.val + 1)) l.ftw = false →
      s.vectorError (n.val + 1) l.mem r = true → s.pending = none →
      completes i s fun t =>
        t.ireq = s.ireq ||| BitVec.twoPow 9 6 ∧ t.ipc = s.ipc + 1 ∧ t.pswr = s.pswr ∧
        (∀ j, t.ar j = s.ar j) ∧ (∀ j, t.gr j = s.gr j) ∧ sameMemory s t ∧ KeepsVector s t ∧
        KeepsPeripherals s t)

/-- R636, R845: wfifo: `ftw` with fewer words than Rows(sb1), those loaded by the same instruction included (W1), or
a load beyond 32 words, those `ftw` takes left out (W2), blocks the processor: nothing else changes. W1 and W2 are
the spec's decision D25 (entries 27, 34). -/
def Obligations.WfifoBlocked : Prop :=
  (∀ (s : State) (i : Instr) (p : Bool) (n : Rep) (l : VLeft) (r : VRight) (loaded taken : Nat),
    i.code = ⟨.vector p n l r, 0⟩ → vectorDefect n l r = none →
    loaded = (match l.mem with | .load .wfifo _ => n.val + 1 | _ => 0) →
    taken = (if l.ftw then rows s.sb1 else 0) →
    s.wfifo.length + loaded < taken ∨ taken + 32 < s.wfifo.length + loaded →
    exec i s = .next { s with stuck := true }) ∧
  (∀ (s : State) (p : Bool), s.wfifo.length < rows s.sb1 →
    exec (.ftw p) s = .next { s with stuck := true } ∧ exec (.ftwWtw p) s = .next { s with stuck := true })

/-! ### The other agents -/

/-- R57, R116, R801, R809: a TimerClock event, for a timer in each mode: held, it stays; else it counts up, and a
count that reaches 0 raises its request and restarts from the reload value in the loop mode, or stops in the single
mode. The event is the spec's parameter, D21 (entry 16). -/
def Obligations.TimerTick : Prop :=
  ∀ (s : State) (rest : List Input), s.inputs = .timerClock :: rest →
    ∃ t, step s = .next t ∧ t.inputs = rest ∧ t.ipc = s.ipc ∧ t.pswr = s.pswr ∧
      (∀ e ∈ [(s.timer0, t.timer0, s.psw 19, s.psw 18), (s.timer1, t.timer1, s.psw 17, s.psw 16)],
        (e.2.2.1 = false → e.2.2.2 = false ∨ e.1.stopped = true → e.2.1 = e.1) ∧
        (e.1.stopped = true → e.2.1 = e.1) ∧
        (e.1.stopped = false → e.2.2.1 = true ∨ e.2.2.2 = true → e.1.count ≠ 0xFFFFFFFF →
          e.2.1 = ⟨e.1.count + 1, e.1.reload, false⟩) ∧
        (e.1.stopped = false → e.2.2.1 = true → e.1.count = 0xFFFFFFFF →
          e.2.1 = ⟨e.1.reload, e.1.reload, false⟩) ∧
        (e.1.stopped = false → e.2.2.1 = false → e.2.2.2 = true → e.1.count = 0xFFFFFFFF →
          e.2.1 = ⟨0, e.1.reload, true⟩)) ∧
      (∀ n, t.ireq.getLsbD n = (s.ireq.getLsbD n ||
        (decide (n = 8) && !s.timer0.stopped && (s.psw 19 || s.psw 18) && s.timer0.count == 0xFFFFFFFF) ||
        (decide (n = 0) && !s.timer1.stopped && (s.psw 17 || s.psw 16) && s.timer1.count == 0xFFFFFFFF))) ∧
      sameMemory s t

/-- R104, R105, R107, R805, R806: a step of the input channel of port 0 or 1 with a word `w` offered, input allowed
and no transfer the other way to finish. With a count it stores the word at ica, counts, and raises the end-of-input
request when the count reaches 0; without one, under external initialization, the word sets ica and icc. R106, R807,
R808: a step of the output channel with a count, output allowed: the long word at oca is sent, and the end-of-output
request is raised when the count reaches 0. R108: a transfer that has started and has words left holds the other
direction back: its step changes nothing. The schedule is the model's, the advance of ica and oca D20 (entries 16, 19). -/
def Obligations.DmaSteps : Prop :=
  (∀ (s : State) (p : Unit2) (rest : List Input) (q : Port) (w : Long) (ws : List Long),
    s.inputs = .dmaIn p :: rest → q = s.port p → q.inQ = w :: ws →
    s.psw (match p with | .u0 => 21 | .u1 => 24) = false → q.moving ≠ some .output →
    (q.icc ≠ 0 → q.ica.odd = false → ∃ t, step s = .next t ∧ t.inputs = rest ∧
      wordStored q.ica w.lo s t ∧ wordStored (q.ica + 1) w.hi s t ∧ sameMemoryBut q.ica 2 s t ∧
      (t.port p).moving = (if q.icc + 1 = 0 then none else some .input) ∧
      (t.port p).ica = q.ica + 2 ∧ (t.port p).icc = q.icc + 1 ∧ (t.port p).inQ = ws ∧ (t.port p).dir = .input ∧
      (t.port p).oca = q.oca ∧ (t.port p).occ = q.occ ∧ (t.port p).outQ = q.outQ ∧ t.dmaSeen = true ∧
      t.ireq = (if q.icc + 1 = 0 then s.ireq ||| BitVec.twoPow 9 (match p with | .u0 => 3 | .u1 => 4) else s.ireq) ∧
      t.ipc = s.ipc ∧ t.pswr = s.pswr) ∧
    (q.icc = 0 → s.psw (match p with | .u0 => 22 | .u1 => 25) = true → ∃ t, step s = .next t ∧ t.inputs = rest ∧
      (t.port p).ica = w.lo ∧ (t.port p).icc = w.hi ∧ (t.port p).inQ = ws ∧ sameMemory s t ∧ t.ireq = s.ireq ∧
      t.dmaSeen = true ∧ t.ipc = s.ipc ∧ t.pswr = s.pswr)) ∧
  (∀ (s : State) (p : Unit2) (rest : List Input) (q : Port),
    s.inputs = .dmaOut p :: rest → q = s.port p → q.occ ≠ 0 →
    s.psw (match p with | .u0 => 20 | .u1 => 23) = false → q.moving ≠ some .input → q.oca.odd = false →
    ∃ t, step s = .next t ∧ t.inputs = rest ∧ (t.port p).outQ = q.outQ ++ [s.read64 0 q.oca] ∧
      (t.port p).oca = q.oca + 2 ∧ (t.port p).occ = q.occ + 1 ∧ (t.port p).dir = .output ∧
      (t.port p).moving = (if q.occ + 1 = 0 then none else some .output) ∧
      (t.port p).ica = q.ica ∧ (t.port p).icc = q.icc ∧ (t.port p).inQ = q.inQ ∧ t.dmaSeen = true ∧
      t.ireq = (if q.occ + 1 = 0 then s.ireq ||| BitVec.twoPow 9 (match p with | .u0 => 1 | .u1 => 2) else s.ireq) ∧
      sameMemory s t ∧ t.ipc = s.ipc ∧ t.pswr = s.pswr) ∧
  (∀ (s : State) (p : Unit2) (rest : List Input) (q : Port), q = s.port p →
    (s.inputs = .dmaIn p :: rest ∧ q.moving = some .output ∧ q.occ ≠ 0) ∨
    (s.inputs = .dmaOut p :: rest ∧ q.moving = some .input ∧ q.icc ≠ 0) →
    ∃ t, step s = .next t ∧ t.inputs = rest ∧ t.port p = q ∧ sameMemory s t ∧ t.ireq = s.ireq)

/-- R180, R870, R871, R875, R804: RESET puts every field the source gives a reset value at that value, leaves
memory, and unblocks the processor; the external interrupt sets INR and nothing else. That RESET leaves
memory is the spec's decision D9, that it leaves the schedule the model's choice (entry 25). -/
def Obligations.ResetAndExtInt : Prop :=
  (∀ (s : State) (rest : List Input), s.inputs = .reset :: rest → ∃ t, step s = .next t ∧
    t.pswr = 0 ∧ t.ireq = 0 ∧ t.port0.dir = .output ∧ t.port1.dir = .input ∧ t.afifo = [] ∧ t.ram = [] ∧
    t.wfifo = [] ∧ t.gbs = false ∧ t.lbs = true ∧ t.intr.extractLsb' 26 4 = 0b0011#4 ∧ t.pending = none ∧
    t.stuck = false ∧ t.mem = s.mem ∧ t.inputs = rest) ∧
  (∀ (s : State) (rest : List Input), s.inputs = .extInt :: rest → Inv s → ∃ t, step s = .next t ∧
    t.ireq = s.ireq ||| BitVec.twoPow 9 5 ∧ t.inputs = rest ∧ t.ipc = s.ipc ∧ t.pswr = s.pswr ∧
    (∀ j, t.ar j = s.ar j) ∧ (∀ j, t.gr j = s.gr j) ∧ sameMemory s t ∧ KeepsVector s t ∧
    KeepsPeripherals { s with inputs := rest } t)
end

