-- ==== Sys2Proof/Laws/Code.lean ====
section
/-! SUPPORT. The constructors and the instructions of R264 they stand for, and the numbering of the decoder. -/

namespace Sys2Proof

/-! ### Constructors -/

/-- The constructor chosen for a scalar instruction stands for that instruction. -/
theorem Instr.code_ofScalar (p : Bool) (l : SLeft) (k : Word) (r : SRight)
    (h : Code.normal ⟨.scalar p l r, k⟩ = true) : (Instr.ofScalar p l k r).code = ⟨.scalar p l r, k⟩ := by
  simp only [Code.normal, Low.long] at h
  unfold Instr.ofScalar
  split <;> simp_all [Instr.code, SLeft.long, Mode.long, Target.long, Xfer.long, RelTarget.long, ArOp.long,
    Mode.addConst, ArOp.addSubConst, ArOp.incDecGr, Target.arConst, SLeft.stackReg, PReg.reg]

/-- The constructor chosen for an instruction stands for that instruction. -/
theorem Instr.code_ofCode (c : Code) (h : c.normal = true) : (Instr.ofCode c).code = c := by
  obtain ⟨low, k⟩ := c
  cases low with
  | scalar p l r => exact Instr.code_ofScalar p l k r h
  | vector p n l r =>
    simp only [Code.normal, Low.long, Bool.false_or, beq_iff_eq] at h
    subst h
    simp only [Instr.ofCode, Instr.ofVector]
    split <;> rfl
  | bare p b =>
    simp only [Code.normal, Low.long, Bool.false_or, beq_iff_eq] at h
    subst h
    cases b <;> rfl

/-- The constant of a short left part is 0. -/
theorem SLeft.constOf_normal (l : SLeft) (k : Word) : (l.long || l.constOf k == 0) = true := by
  cases h : l.long <;> simp [SLeft.constOf, h]

/-- Every constructor stands for an instruction whose constant is 0 where it is short. -/
theorem Instr.code_normal (i : Instr) : i.code.normal = true := by
  cases i
  case wtw p o => cases o <;> rfl
  case ldVctl p d m k r => exact SLeft.constOf_normal (.load (.vctl d) m) k
  case ldArAddConst => simp only [Instr.code, Code.normal, Low.long, SLeft.long, Mode.addConst]; split <;> rfl
  case stArAddConst => simp only [Instr.code, Code.normal, Low.long, SLeft.long, Mode.addConst]; split <;> rfl
  case amAddConst => simp only [Instr.code, Code.normal, Low.long, SLeft.long, ArOp.addSubConst]; split <;> rfl
  case gotoArK => simp only [Instr.code, Code.normal, Low.long, SLeft.long, Xfer.long, Target.arConst]; split <;> rfl
  case callArK => simp only [Instr.code, Code.normal, Low.long, SLeft.long, Xfer.long, Target.arConst]; split <;> rfl
  all_goals first
    | rfl
    | exact SLeft.constOf_normal _ _
    | simp [Instr.code, Code.normal]

/-- Writing an instruction with the constructor chosen for it does not change what it stands for. -/
theorem Instr.code_canon (i : Instr) : i.canon.code = i.code := Instr.code_ofCode _ i.code_normal

/-! ### The numbering -/

namespace Codec

variable {α β : Type}

/-- A list of all values is a numbering. -/
theorem good_ofList [DecidableEq α] {l : List α} (h : ∀ a, a ∈ l) : (ofList l).Good where
  lt a := List.idxOf_lt_length_iff.mpr (h a)
  dec_enc a := by
    have := List.idxOf_lt_length_iff.mpr (h a)
    simp [ofList, List.getElem?_eq_getElem this]

theorem good_fin (n : Nat) : (Codec.fin n).Good where
  lt a := a.isLt
  dec_enc a := by simp [Codec.fin]

theorem good_prod {c : Codec α} {d : Codec β} (hc : c.Good) (hd : d.Good) : (c.prod d).Good where
  lt a := by
    have h1 := hc.lt a.1
    have h2 := hd.lt a.2
    calc c.enc a.1 * d.size + d.enc a.2 < c.enc a.1 * d.size + d.size := by omega
      _ = (c.enc a.1 + 1) * d.size := by ring
      _ ≤ c.size * d.size := Nat.mul_le_mul_right _ h1
  dec_enc a := by
    have h2 := hd.lt a.2
    have hpos : 0 < d.size := by omega
    have e1 : (c.enc a.1 * d.size + d.enc a.2) / d.size = c.enc a.1 := by
      rw [Nat.mul_comm, Nat.mul_add_div hpos, Nat.div_eq_of_lt h2, Nat.add_zero]
    have e2 : (c.enc a.1 * d.size + d.enc a.2) % d.size = d.enc a.2 := by
      rw [Nat.mul_comm, Nat.mul_add_mod, Nat.mod_eq_of_lt h2]
    simp only [prod, e1, e2, hc.dec_enc, hd.dec_enc]
    rfl

theorem good_sum {c : Codec α} {d : Codec β} (hc : c.Good) (hd : d.Good) : (c.sum d).Good where
  lt a := by
    cases a with
    | inl x => exact Nat.lt_add_right _ (hc.lt x)
    | inr y => exact Nat.add_lt_add_left (hd.lt y) _
  dec_enc a := by
    cases a with
    | inl x => simp [sum, hc.lt x, hc.dec_enc]
    | inr y => simp [sum, hd.dec_enc]

theorem good_via {c : Codec β} {f : α → β} {g : β → α} (hc : c.Good) (h : ∀ a, g (f a) = a) :
    (c.via f g).Good where
  lt a := hc.lt (f a)
  dec_enc a := by simp [via, hc.dec_enc, h]

end Codec

open Codec

theorem codecBool_good : codecBool.Good := good_ofList (by intro a; cases a <;> decide)
theorem codecIx_good : codecIx.Good := good_fin 8
theorem codecSpecReg_good : codecSpecReg.Good := good_ofList (by intro a; cases a <;> decide)
theorem codecSpecPair_good : codecSpecPair.Good := good_ofList (by intro a; cases a <;> decide)
theorem codecSpecial_good : codecSpecial.Good :=
  good_via (good_sum codecSpecReg_good codecSpecPair_good) (by intro a; cases a <;> rfl)
theorem codecVCtl_good : codecVCtl.Good :=
  good_ofList (by intro a; rcases a with h | h <;> cases h <;> decide)
theorem codecReg_good : codecReg.Good :=
  good_via (good_sum (good_sum codecIx_good codecIx_good) (good_sum codecIx_good
    (good_sum codecSpecial_good codecVCtl_good))) (by intro a; cases a <;> rfl)
theorem codecMode_good : codecMode.Good :=
  good_via (good_sum codecBool_good (good_prod (good_fin 10) codecIx_good)) (by intro a; cases a <;> rfl)
theorem codecArOp_good : codecArOp.Good :=
  good_via (good_prod (good_fin 12) (good_prod codecIx_good codecIx_good)) (by intro a; cases a <;> rfl)
theorem codecCond_good : codecCond.Good := good_ofList (by intro a; cases a <;> decide)
theorem codecXfer_good : codecXfer.Good :=
  good_via (good_prod (good_fin 18) codecIx_good) (by
    intro a
    rcases a with t | t | t | t | _ | _
    all_goals first | rfl | (cases t <;> rfl))
theorem codecSLeft_good : codecSLeft.Good :=
  good_via (good_sum (good_sum (good_fin 5) (good_prod codecReg_good codecMode_good))
    (good_sum (good_prod codecMode_good codecReg_good) (good_sum (good_prod (good_fin 3) codecReg_good)
      (good_sum (good_prod codecReg_good codecReg_good) (good_sum codecArOp_good
        (good_prod codecCond_good (good_prod codecBool_good codecXfer_good))))))) (by intro a; cases a <;> rfl)
theorem codecAluFn_good : codecAluFn.Good := good_ofList (by intro a; cases a <;> decide)
theorem codecAluForm_good : codecAluForm.Good :=
  good_via (good_sum codecBool_good (good_sum codecIx_good codecIx_good)) (by intro a; cases a <;> rfl)
theorem codecShiftKind_good : codecShiftKind.Good := good_ofList (by intro a; cases a <;> decide)
theorem codecSRight_good : codecSRight.Good :=
  good_via (good_sum (good_prod codecAluForm_good (good_prod codecAluFn_good (good_prod codecIx_good codecIx_good)))
    (good_sum codecBool_good (good_prod codecShiftKind_good (good_prod codecIx_good
      (good_prod codecIx_good (good_fin 33)))))) (by intro a; cases a <;> rfl)
theorem codecVMode_good : codecVMode.Good :=
  good_via (good_prod (good_fin 7) codecIx_good) (by intro a; cases a <;> rfl)
theorem codecLBuf_good : codecLBuf.Good := good_ofList (by intro a; cases a <;> decide)
theorem codecVLeft_good : codecVLeft.Good :=
  good_via (good_prod (good_sum codecBool_good (good_sum (good_prod codecLBuf_good codecVMode_good)
    (good_prod codecVMode_good codecBool_good))) (good_prod codecBool_good codecBool_good))
    (by rintro ⟨m, f, w⟩; cases m <;> rfl)
theorem codecVArg_good : codecVArg.Good :=
  good_ofList (by
    rintro ⟨act, src⟩
    rcases src with b | _ | _ | _ <;> (try cases b) <;> cases act <;> decide)
theorem codecMask_good : codecMask.Good :=
  good_ofList (by intro a; rcases a with _ | b <;> (try cases b) <;> decide)
theorem codecBuf_good : codecBuf.Good := good_ofList (by intro a; cases a <;> decide)
theorem codecVLogOp_good : codecVLogOp.Good := good_ofList (by intro a; cases a <;> decide)
theorem codecVRight_good : codecVRight.Good :=
  good_via (good_prod (good_sum (good_sum (good_fin 4) (good_prod codecVLogOp_good (good_prod codecBool_good
    codecBool_good))) (good_sum codecBool_good (good_sum (good_prod codecBuf_good codecBool_good)
      (good_prod codecMask_good codecBool_good)))) (good_prod codecVArg_good codecVArg_good)) (by
    intro a
    cases a
    case fill b => cases b <;> rfl
    all_goals rfl)
theorem codecVBare_good : codecVBare.Good := good_ofList (by intro a; cases a <;> decide)

/-- The numbering of low words numbers every low word. -/
theorem codecLow_good : codecLow.Good :=
  good_via (good_sum (good_prod codecBool_good codecVBare_good) (good_sum
    (good_prod codecBool_good (good_prod codecSLeft_good codecSRight_good))
    (good_prod codecBool_good (good_prod (good_fin 32) (good_prod codecVLeft_good codecVRight_good)))))
    (by intro a; cases a <;> rfl)

/-- There are fewer low words than words of 32 bits. -/
theorem codecLow_size : codecLow.size < 2 ^ 32 := by decide

/-- Only the bare `vnul` with P = 0 has number 0. -/
theorem codecLow_enc_vnul : codecLow.enc lowVnul = 0 := by decide

/-! ### Low words -/

/-- The number of an instruction of the tables names it. -/
theorem lowOfNumber_enc (l : Low) (h : l.wellFormed = true) : lowOfNumber (codecLow.enc l) = some l := by
  simp [lowOfNumber, codecLow_good.dec_enc, h]

/-- An instruction found by its number has that number and is in the tables. -/
theorem lowOfNumber_some {n : Nat} {l : Low} (h : lowOfNumber n = some l) :
    codecLow.enc l = n ∧ l.wellFormed = true := by
  have := Option.filter_eq_some_iff.mp h
  simpa using this.2

/-- The low word of an instruction of the tables stands for that instruction. -/
theorem lowOfWord_wordOfLow (l : Low) (hw : l.wellFormed = true) : lowOfWord (wordOfLow l) = some l := by
  have hlt : codecLow.enc l < 2 ^ 32 := lt_trans (codecLow_good.lt l) codecLow_size
  have ht : (lowIndex l).toNat = codecLow.enc l := by
    simp only [lowIndex, BitVec.toNat_ofNat]
    omega
  unfold wordOfLow
  split
  · next h =>
    unfold lowOfWord lowOfNonzero
    rw [dif_neg (Config.codePerm ⟨lowIndex l, h⟩).property]
    simp only [Subtype.coe_eta, Equiv.symm_apply_apply, ht, lowOfNumber_enc l hw, Option.some_or]
  · next h =>
    have h0 : codecLow.enc l = 0 := by
      rw [← ht, show lowIndex l = 0 by simpa using h]
      rfl
    have h1 := congrArg codecLow.dec (h0.trans codecLow_enc_vnul.symm)
    rw [codecLow_good.dec_enc, codecLow_good.dec_enc] at h1
    rw [Option.some.inj h1]
    rfl

/-- Decoding the low word of a well-formed instruction, whatever word follows it. -/
theorem decode_wordOfLow (l : Low) (w1 : Word) (h : l.defect = none) :
    decode (wordOfLow l) w1 = .ok (.ofCode ⟨l, constantOf l w1⟩) := by
  unfold decode
  rw [lowOfWord_wordOfLow l (by simp [Low.wellFormed, h])]
  simp only [h]

end Sys2Proof
end

