-- ==== Sys2Proof/Laws/Memory.lean ====
section
/-! SUPPORT. What the memory operations do: a read after a write, and the canonical form. -/

namespace Sys2Proof.Machine

open Sys2Proof

/-! ### One byte -/

/-- A byte no cell is listed for reads as an unlisted byte. -/
theorem Memory.byteAt_absent {m : List Host.Cell} {x : Nat} (h : ∀ c ∈ m, c.1 ≠ x) :
    Memory.byteAt m x = unlistedByte := by
  induction m with
  | nil => rfl
  | cons c t ih =>
    rw [Memory.byteAt, if_neg (h c (by simp))]
    exact ih fun d hd => h d (by simp [hd])

/-- Removing the cells of one address changes no other byte. -/
theorem Memory.byteAt_filter (m : List Host.Cell) {x y : Nat} (h : y ≠ x) :
    Memory.byteAt (m.filter fun c => c.1 ≠ x) y = Memory.byteAt m y := by
  induction m with
  | nil => rfl
  | cons c t ih =>
    by_cases hc : c.1 = x
    · rw [List.filter_cons_of_neg (by simp [hc]), ih, Memory.byteAt, if_neg (by omega)]
    · rw [List.filter_cons_of_pos (by simp [hc]), Memory.byteAt, Memory.byteAt, ih]

/-- A cell put in where none is listed for its address. -/
theorem Memory.byteAt_insertCell (m : List Host.Cell) (x y : Nat) (v : BitVec 8) (h : ∀ c ∈ m, c.1 ≠ x) :
    Memory.byteAt (Memory.insertCell x v m) y = if y = x then v else Memory.byteAt m y := by
  induction m with
  | nil => simp [Memory.insertCell, Memory.byteAt, eq_comm]
  | cons c t ih =>
    have ht := ih fun d hd => h d (by simp [hd])
    have hc : c.1 ≠ x := h c (by simp)
    rw [Memory.insertCell]
    split
    · by_cases hy : y = x
      · simp [Memory.byteAt, hy]
      · rw [Memory.byteAt, if_neg (Ne.symm hy), if_neg hy]
    · rw [Memory.byteAt, Memory.byteAt, ht]
      by_cases hy : y = x
      · subst hy; simp [hc]
      · simp [hy]

/-- Reading a byte after writing one. -/
theorem Memory.byteAt_setByte (m : List Host.Cell) (x y : Nat) (v : BitVec 8) :
    Memory.byteAt (Memory.setByte m x v) y = if y = x then v else Memory.byteAt m y := by
  have habs : ∀ c ∈ m.filter (fun c => c.1 ≠ x), c.1 ≠ x := by simp
  rw [Memory.setByte]
  split
  · next hv =>
    by_cases hy : y = x
    · subst hy; rw [Memory.byteAt_absent habs, if_pos rfl, hv]
    · rw [Memory.byteAt_filter m hy, if_neg hy]
  · rw [Memory.byteAt_insertCell _ _ _ _ habs]
    by_cases hy : y = x
    · simp [hy]
    · rw [if_neg hy, if_neg hy, Memory.byteAt_filter m hy]

/-! ### One word -/

/-- The bytes of a word are four addresses of its own. -/
theorem byteAddr_inj {a b : Word} {i j : Nat} (hi : i < 4) (hj : j < 4) (h : byteAddr a i = byteAddr b j) :
    a = b ∧ i = j := by
  simp only [byteAddr] at h
  exact ⟨BitVec.eq_of_toNat_eq (by omega), by omega⟩

/-- A byte outside a word stays when the word is written. -/
theorem Memory.byteAt_setWord_of_ne (m : List Host.Cell) (a v : Word) {x : Nat}
    (h : ∀ j < 4, x ≠ byteAddr a j) : Memory.byteAt (Memory.setWord m a v) x = Memory.byteAt m x := by
  simp only [Memory.setWord, Memory.byteAt_setByte, h 0 (by omega), h 1 (by omega), h 2 (by omega),
    h 3 (by omega), if_false]

/-- A word read after it is written. -/
theorem Memory.word_setWord_self (m : List Host.Cell) (a v : Word) :
    Memory.word (Memory.setWord m a v) a = v := by
  have e : ∀ i j : Nat, byteAddr a i = byteAddr a j ↔ i = j := by
    intro i j; simp [byteAddr]
  simp only [Memory.word, Memory.setWord, Memory.byteAt_setByte, e]
  apply BitVec.eq_of_getLsbD_eq
  intro i hi
  simp only [Nat.reduceEqDiff, if_false, if_true, BitVec.getLsbD_append, BitVec.getLsbD_extractLsb']
  have hb : ∀ k j : Nat, j < 8 → k + j = i → (decide (j < 8) && v.getLsbD (k + j)) = v.getLsbD i := by
    intro k j hj he
    simp [hj, he]
  split
  · exact hb 0 i ‹_› (by omega)
  · split
    · exact hb 8 _ ‹_› (by omega)
    · split
      · exact hb 16 _ ‹_› (by omega)
      · exact hb 24 _ (by omega) (by omega)

/-- Another word stays when a word is written. -/
theorem Memory.word_setWord_of_ne (m : List Host.Cell) {a b : Word} (v : Word) (h : b ≠ a) :
    Memory.word (Memory.setWord m a v) b = Memory.word m b := by
  have e : ∀ i < 4, ∀ j < 4, byteAddr b i ≠ byteAddr a j :=
    fun i hi j hj he => h (byteAddr_inj hi hj he).1
  simp only [Memory.word, Memory.byteAt_setWord_of_ne m a v (e 0 (by omega)),
    Memory.byteAt_setWord_of_ne m a v (e 1 (by omega)), Memory.byteAt_setWord_of_ne m a v (e 2 (by omega)),
    Memory.byteAt_setWord_of_ne m a v (e 3 (by omega))]

/-- Reading a word after writing one. -/
theorem Memory.word_setWord (m : List Host.Cell) (a b v : Word) :
    Memory.word (Memory.setWord m a v) b = if b = a then v else Memory.word m b := by
  split
  · next h => subst h; exact Memory.word_setWord_self m b v
  · next h => exact Memory.word_setWord_of_ne m v h

/-! ### The canonical form -/

/-- The canonical form as a proposition. -/
theorem Memory.wf_iff (m : List Host.Cell) :
    Memory.wf m = true ↔ m.Pairwise (fun c d => c.1 < d.1) ∧ ∀ c ∈ m, c.2 ≠ unlistedByte ∧ c.1 < 2 ^ 34 := by
  simp [Memory.wf]

/-- The cells of a list a cell was put into. -/
theorem Memory.mem_insertCell {x : Nat} {v : BitVec 8} {m : List Host.Cell} {c : Host.Cell}
    (h : c ∈ Memory.insertCell x v m) : c = (x, v) ∨ c ∈ m := by
  induction m with
  | nil => simpa [Memory.insertCell] using h
  | cons d t ih =>
    rw [Memory.insertCell] at h
    split at h
    · simpa using h
    · rcases List.mem_cons.mp h with h | h
      · exact .inr (by simp [h])
      · rcases ih h with h | h
        · exact .inl h
        · exact .inr (by simp [h])

/-- Putting a cell in keeps the addresses rising. -/
theorem Memory.pairwise_insertCell {x : Nat} {v : BitVec 8} {m : List Host.Cell}
    (hm : m.Pairwise fun c d => c.1 < d.1) (h : ∀ c ∈ m, c.1 ≠ x) :
    (Memory.insertCell x v m).Pairwise fun c d => c.1 < d.1 := by
  induction m with
  | nil => simp [Memory.insertCell]
  | cons d t ih =>
    have hd := h d (by simp)
    rw [List.pairwise_cons] at hm
    rw [Memory.insertCell]
    split
    · next hlt =>
      refine List.pairwise_cons.mpr ⟨fun c hc => ?_, List.pairwise_cons.mpr hm⟩
      rcases List.mem_cons.mp hc with rfl | hc
      · exact hlt
      · exact Nat.lt_trans hlt (hm.1 c hc)
    · refine List.pairwise_cons.mpr ⟨fun c hc => ?_, ih hm.2 fun c hc => h c (by simp [hc])⟩
      rcases Memory.mem_insertCell hc with rfl | hc
      · simp only; omega
      · exact hm.1 c hc

/-- Writing a byte of the address space keeps the canonical form. -/
theorem Memory.wf_setByte {m : List Host.Cell} {x : Nat} (v : BitVec 8) (hx : x < 2 ^ 34)
    (h : Memory.wf m = true) : Memory.wf (Memory.setByte m x v) = true := by
  rw [Memory.wf_iff] at h ⊢
  have hf : (m.filter fun c => c.1 ≠ x).Pairwise fun c d => c.1 < d.1 := h.1.filter _
  have hmem : ∀ c ∈ m.filter (fun c => c.1 ≠ x), c.2 ≠ unlistedByte ∧ c.1 < 2 ^ 34 :=
    fun c hc => h.2 c (List.mem_filter.mp hc).1
  rw [Memory.setByte]
  split
  · exact ⟨hf, hmem⟩
  · next hv =>
    refine ⟨Memory.pairwise_insertCell hf (by simp), fun c hc => ?_⟩
    rcases Memory.mem_insertCell hc with rfl | hc
    · exact ⟨hv, hx⟩
    · exact hmem c hc

/-- Writing a word keeps the canonical form. -/
theorem Memory.wf_setWord {m : List Host.Cell} (a v : Word) (h : Memory.wf m = true) :
    Memory.wf (Memory.setWord m a v) = true := by
  have hb : ∀ j < 4, byteAddr a j < 2 ^ 34 := by
    intro j hj
    have := a.isLt
    simp only [byteAddr]; omega
  exact Memory.wf_setByte _ (hb 3 (by omega)) (Memory.wf_setByte _ (hb 2 (by omega))
    (Memory.wf_setByte _ (hb 1 (by omega)) (Memory.wf_setByte _ (hb 0 (by omega)) h)))

/-- Writing one word through the state keeps the canonical form. -/
theorem State.wf_write32 {s : State} (a v : Word) (h : Memory.wf s.mem = true) :
    Memory.wf (s.write32 a v).mem = true := by
  unfold State.write32
  split
  · exact Memory.wf_setWord a v h
  · exact h

/-- Writing two words through the state keeps the canonical form. -/
theorem State.wf_write64 {s : State} (a : Word) (v : Long) (h : Memory.wf s.mem = true) :
    Memory.wf (s.write64 a v).mem = true :=
  State.wf_write32 _ _ (State.wf_write32 _ _ h)

/-- The memory after reset has the canonical form. -/
theorem State.wf_reset : Memory.wf State.reset.mem = true := rfl

end Sys2Proof.Machine
end

