-- ==== Sys2Proof/Laws/State.lean ====
section
/-! SUPPORT. One lemma per field of State and per update: the fields an update leaves alone, and what the
accessors read after one. -/

namespace Sys2Proof.Machine

open Sys2Proof

variable (s : State)

@[simp] theorem State.setAr_grs (i : Ix) (v : Word) : (s.setAr i v).grs = s.grs := rfl
@[simp] theorem State.setAr_ipc (i : Ix) (v : Word) : (s.setAr i v).ipc = s.ipc := rfl
@[simp] theorem State.setAr_pswr (i : Ix) (v : Word) : (s.setAr i v).pswr = s.pswr := rfl
@[simp] theorem State.setAr_ireq (i : Ix) (v : Word) : (s.setAr i v).ireq = s.ireq := rfl
@[simp] theorem State.setAr_gbs (i : Ix) (v : Word) : (s.setAr i v).gbs = s.gbs := rfl
@[simp] theorem State.setAr_lbs (i : Ix) (v : Word) : (s.setAr i v).lbs = s.lbs := rfl
@[simp] theorem State.setAr_gmicr (i : Ix) (v : Word) : (s.setAr i v).gmicr = s.gmicr := rfl
@[simp] theorem State.setAr_lmicr (i : Ix) (v : Word) : (s.setAr i v).lmicr = s.lmicr := rfl
@[simp] theorem State.setAr_port0 (i : Ix) (v : Word) : (s.setAr i v).port0 = s.port0 := rfl
@[simp] theorem State.setAr_port1 (i : Ix) (v : Word) : (s.setAr i v).port1 = s.port1 := rfl
@[simp] theorem State.setAr_timer0 (i : Ix) (v : Word) : (s.setAr i v).timer0 = s.timer0 := rfl
@[simp] theorem State.setAr_timer1 (i : Ix) (v : Word) : (s.setAr i v).timer1 = s.timer1 := rfl
@[simp] theorem State.setAr_f1cr (i : Ix) (v : Word) : (s.setAr i v).f1cr = s.f1cr := rfl
@[simp] theorem State.setAr_f2cr (i : Ix) (v : Word) : (s.setAr i v).f2cr = s.f2cr := rfl
@[simp] theorem State.setAr_nb1 (i : Ix) (v : Word) : (s.setAr i v).nb1 = s.nb1 := rfl
@[simp] theorem State.setAr_nb2 (i : Ix) (v : Word) : (s.setAr i v).nb2 = s.nb2 := rfl
@[simp] theorem State.setAr_sb1 (i : Ix) (v : Word) : (s.setAr i v).sb1 = s.sb1 := rfl
@[simp] theorem State.setAr_sb2 (i : Ix) (v : Word) : (s.setAr i v).sb2 = s.sb2 := rfl
@[simp] theorem State.setAr_vr (i : Ix) (v : Word) : (s.setAr i v).vr = s.vr := rfl
@[simp] theorem State.setAr_afifo (i : Ix) (v : Word) : (s.setAr i v).afifo = s.afifo := rfl
@[simp] theorem State.setAr_ram (i : Ix) (v : Word) : (s.setAr i v).ram = s.ram := rfl
@[simp] theorem State.setAr_wfifo (i : Ix) (v : Word) : (s.setAr i v).wfifo = s.wfifo := rfl
@[simp] theorem State.setAr_ws (i : Ix) (v : Word) : (s.setAr i v).ws = s.ws := rfl
@[simp] theorem State.setAr_wa (i : Ix) (v : Word) : (s.setAr i v).wa = s.wa := rfl
@[simp] theorem State.setAr_pending (i : Ix) (v : Word) : (s.setAr i v).pending = s.pending := rfl
@[simp] theorem State.setAr_stuck (i : Ix) (v : Word) : (s.setAr i v).stuck = s.stuck := rfl
@[simp] theorem State.setAr_mem (i : Ix) (v : Word) : (s.setAr i v).mem = s.mem := rfl
@[simp] theorem State.setAr_params (i : Ix) (v : Word) : (s.setAr i v).params = s.params := rfl
@[simp] theorem State.setAr_inputs (i : Ix) (v : Word) : (s.setAr i v).inputs = s.inputs := rfl
@[simp] theorem State.setAr_freeCtr (i : Ix) (v : Word) : (s.setAr i v).freeCtr = s.freeCtr := rfl
@[simp] theorem State.setAr_dmaSeen (i : Ix) (v : Word) : (s.setAr i v).dmaSeen = s.dmaSeen := rfl

@[simp] theorem State.setGr_ars (i : Ix) (v : Word) : (s.setGr i v).ars = s.ars := rfl
@[simp] theorem State.setGr_ipc (i : Ix) (v : Word) : (s.setGr i v).ipc = s.ipc := rfl
@[simp] theorem State.setGr_pswr (i : Ix) (v : Word) : (s.setGr i v).pswr = s.pswr := rfl
@[simp] theorem State.setGr_ireq (i : Ix) (v : Word) : (s.setGr i v).ireq = s.ireq := rfl
@[simp] theorem State.setGr_gbs (i : Ix) (v : Word) : (s.setGr i v).gbs = s.gbs := rfl
@[simp] theorem State.setGr_lbs (i : Ix) (v : Word) : (s.setGr i v).lbs = s.lbs := rfl
@[simp] theorem State.setGr_gmicr (i : Ix) (v : Word) : (s.setGr i v).gmicr = s.gmicr := rfl
@[simp] theorem State.setGr_lmicr (i : Ix) (v : Word) : (s.setGr i v).lmicr = s.lmicr := rfl
@[simp] theorem State.setGr_port0 (i : Ix) (v : Word) : (s.setGr i v).port0 = s.port0 := rfl
@[simp] theorem State.setGr_port1 (i : Ix) (v : Word) : (s.setGr i v).port1 = s.port1 := rfl
@[simp] theorem State.setGr_timer0 (i : Ix) (v : Word) : (s.setGr i v).timer0 = s.timer0 := rfl
@[simp] theorem State.setGr_timer1 (i : Ix) (v : Word) : (s.setGr i v).timer1 = s.timer1 := rfl
@[simp] theorem State.setGr_f1cr (i : Ix) (v : Word) : (s.setGr i v).f1cr = s.f1cr := rfl
@[simp] theorem State.setGr_f2cr (i : Ix) (v : Word) : (s.setGr i v).f2cr = s.f2cr := rfl
@[simp] theorem State.setGr_nb1 (i : Ix) (v : Word) : (s.setGr i v).nb1 = s.nb1 := rfl
@[simp] theorem State.setGr_nb2 (i : Ix) (v : Word) : (s.setGr i v).nb2 = s.nb2 := rfl
@[simp] theorem State.setGr_sb1 (i : Ix) (v : Word) : (s.setGr i v).sb1 = s.sb1 := rfl
@[simp] theorem State.setGr_sb2 (i : Ix) (v : Word) : (s.setGr i v).sb2 = s.sb2 := rfl
@[simp] theorem State.setGr_vr (i : Ix) (v : Word) : (s.setGr i v).vr = s.vr := rfl
@[simp] theorem State.setGr_afifo (i : Ix) (v : Word) : (s.setGr i v).afifo = s.afifo := rfl
@[simp] theorem State.setGr_ram (i : Ix) (v : Word) : (s.setGr i v).ram = s.ram := rfl
@[simp] theorem State.setGr_wfifo (i : Ix) (v : Word) : (s.setGr i v).wfifo = s.wfifo := rfl
@[simp] theorem State.setGr_ws (i : Ix) (v : Word) : (s.setGr i v).ws = s.ws := rfl
@[simp] theorem State.setGr_wa (i : Ix) (v : Word) : (s.setGr i v).wa = s.wa := rfl
@[simp] theorem State.setGr_pending (i : Ix) (v : Word) : (s.setGr i v).pending = s.pending := rfl
@[simp] theorem State.setGr_stuck (i : Ix) (v : Word) : (s.setGr i v).stuck = s.stuck := rfl
@[simp] theorem State.setGr_mem (i : Ix) (v : Word) : (s.setGr i v).mem = s.mem := rfl
@[simp] theorem State.setGr_params (i : Ix) (v : Word) : (s.setGr i v).params = s.params := rfl
@[simp] theorem State.setGr_inputs (i : Ix) (v : Word) : (s.setGr i v).inputs = s.inputs := rfl
@[simp] theorem State.setGr_freeCtr (i : Ix) (v : Word) : (s.setGr i v).freeCtr = s.freeCtr := rfl
@[simp] theorem State.setGr_dmaSeen (i : Ix) (v : Word) : (s.setGr i v).dmaSeen = s.dmaSeen := rfl

@[simp] theorem State.applyUpd_grs (u : Option (Ix × Word)) : (s.applyUpd u).grs = s.grs := by cases u <;> rfl
@[simp] theorem State.applyUpd_ipc (u : Option (Ix × Word)) : (s.applyUpd u).ipc = s.ipc := by cases u <;> rfl
@[simp] theorem State.applyUpd_pswr (u : Option (Ix × Word)) : (s.applyUpd u).pswr = s.pswr := by cases u <;> rfl
@[simp] theorem State.applyUpd_ireq (u : Option (Ix × Word)) : (s.applyUpd u).ireq = s.ireq := by cases u <;> rfl
@[simp] theorem State.applyUpd_gbs (u : Option (Ix × Word)) : (s.applyUpd u).gbs = s.gbs := by cases u <;> rfl
@[simp] theorem State.applyUpd_lbs (u : Option (Ix × Word)) : (s.applyUpd u).lbs = s.lbs := by cases u <;> rfl
@[simp] theorem State.applyUpd_gmicr (u : Option (Ix × Word)) : (s.applyUpd u).gmicr = s.gmicr := by cases u <;> rfl
@[simp] theorem State.applyUpd_lmicr (u : Option (Ix × Word)) : (s.applyUpd u).lmicr = s.lmicr := by cases u <;> rfl
@[simp] theorem State.applyUpd_port0 (u : Option (Ix × Word)) : (s.applyUpd u).port0 = s.port0 := by cases u <;> rfl
@[simp] theorem State.applyUpd_port1 (u : Option (Ix × Word)) : (s.applyUpd u).port1 = s.port1 := by cases u <;> rfl
@[simp] theorem State.applyUpd_timer0 (u : Option (Ix × Word)) : (s.applyUpd u).timer0 = s.timer0 := by cases u <;> rfl
@[simp] theorem State.applyUpd_timer1 (u : Option (Ix × Word)) : (s.applyUpd u).timer1 = s.timer1 := by cases u <;> rfl
@[simp] theorem State.applyUpd_f1cr (u : Option (Ix × Word)) : (s.applyUpd u).f1cr = s.f1cr := by cases u <;> rfl
@[simp] theorem State.applyUpd_f2cr (u : Option (Ix × Word)) : (s.applyUpd u).f2cr = s.f2cr := by cases u <;> rfl
@[simp] theorem State.applyUpd_nb1 (u : Option (Ix × Word)) : (s.applyUpd u).nb1 = s.nb1 := by cases u <;> rfl
@[simp] theorem State.applyUpd_nb2 (u : Option (Ix × Word)) : (s.applyUpd u).nb2 = s.nb2 := by cases u <;> rfl
@[simp] theorem State.applyUpd_sb1 (u : Option (Ix × Word)) : (s.applyUpd u).sb1 = s.sb1 := by cases u <;> rfl
@[simp] theorem State.applyUpd_sb2 (u : Option (Ix × Word)) : (s.applyUpd u).sb2 = s.sb2 := by cases u <;> rfl
@[simp] theorem State.applyUpd_vr (u : Option (Ix × Word)) : (s.applyUpd u).vr = s.vr := by cases u <;> rfl
@[simp] theorem State.applyUpd_afifo (u : Option (Ix × Word)) : (s.applyUpd u).afifo = s.afifo := by cases u <;> rfl
@[simp] theorem State.applyUpd_ram (u : Option (Ix × Word)) : (s.applyUpd u).ram = s.ram := by cases u <;> rfl
@[simp] theorem State.applyUpd_wfifo (u : Option (Ix × Word)) : (s.applyUpd u).wfifo = s.wfifo := by cases u <;> rfl
@[simp] theorem State.applyUpd_ws (u : Option (Ix × Word)) : (s.applyUpd u).ws = s.ws := by cases u <;> rfl
@[simp] theorem State.applyUpd_wa (u : Option (Ix × Word)) : (s.applyUpd u).wa = s.wa := by cases u <;> rfl
@[simp] theorem State.applyUpd_pending (u : Option (Ix × Word)) : (s.applyUpd u).pending = s.pending := by cases u <;> rfl
@[simp] theorem State.applyUpd_stuck (u : Option (Ix × Word)) : (s.applyUpd u).stuck = s.stuck := by cases u <;> rfl
@[simp] theorem State.applyUpd_mem (u : Option (Ix × Word)) : (s.applyUpd u).mem = s.mem := by cases u <;> rfl
@[simp] theorem State.applyUpd_params (u : Option (Ix × Word)) : (s.applyUpd u).params = s.params := by cases u <;> rfl
@[simp] theorem State.applyUpd_inputs (u : Option (Ix × Word)) : (s.applyUpd u).inputs = s.inputs := by cases u <;> rfl
@[simp] theorem State.applyUpd_freeCtr (u : Option (Ix × Word)) : (s.applyUpd u).freeCtr = s.freeCtr := by cases u <;> rfl
@[simp] theorem State.applyUpd_dmaSeen (u : Option (Ix × Word)) : (s.applyUpd u).dmaSeen = s.dmaSeen := by cases u <;> rfl

@[simp] theorem State.setFlags_ars (f : BitVec 4) : (s.setFlags f).ars = s.ars := rfl
@[simp] theorem State.setFlags_grs (f : BitVec 4) : (s.setFlags f).grs = s.grs := rfl
@[simp] theorem State.setFlags_ipc (f : BitVec 4) : (s.setFlags f).ipc = s.ipc := rfl
@[simp] theorem State.setFlags_ireq (f : BitVec 4) : (s.setFlags f).ireq = s.ireq := rfl
@[simp] theorem State.setFlags_gbs (f : BitVec 4) : (s.setFlags f).gbs = s.gbs := rfl
@[simp] theorem State.setFlags_lbs (f : BitVec 4) : (s.setFlags f).lbs = s.lbs := rfl
@[simp] theorem State.setFlags_gmicr (f : BitVec 4) : (s.setFlags f).gmicr = s.gmicr := rfl
@[simp] theorem State.setFlags_lmicr (f : BitVec 4) : (s.setFlags f).lmicr = s.lmicr := rfl
@[simp] theorem State.setFlags_port0 (f : BitVec 4) : (s.setFlags f).port0 = s.port0 := rfl
@[simp] theorem State.setFlags_port1 (f : BitVec 4) : (s.setFlags f).port1 = s.port1 := rfl
@[simp] theorem State.setFlags_timer0 (f : BitVec 4) : (s.setFlags f).timer0 = s.timer0 := rfl
@[simp] theorem State.setFlags_timer1 (f : BitVec 4) : (s.setFlags f).timer1 = s.timer1 := rfl
@[simp] theorem State.setFlags_f1cr (f : BitVec 4) : (s.setFlags f).f1cr = s.f1cr := rfl
@[simp] theorem State.setFlags_f2cr (f : BitVec 4) : (s.setFlags f).f2cr = s.f2cr := rfl
@[simp] theorem State.setFlags_nb1 (f : BitVec 4) : (s.setFlags f).nb1 = s.nb1 := rfl
@[simp] theorem State.setFlags_nb2 (f : BitVec 4) : (s.setFlags f).nb2 = s.nb2 := rfl
@[simp] theorem State.setFlags_sb1 (f : BitVec 4) : (s.setFlags f).sb1 = s.sb1 := rfl
@[simp] theorem State.setFlags_sb2 (f : BitVec 4) : (s.setFlags f).sb2 = s.sb2 := rfl
@[simp] theorem State.setFlags_vr (f : BitVec 4) : (s.setFlags f).vr = s.vr := rfl
@[simp] theorem State.setFlags_afifo (f : BitVec 4) : (s.setFlags f).afifo = s.afifo := rfl
@[simp] theorem State.setFlags_ram (f : BitVec 4) : (s.setFlags f).ram = s.ram := rfl
@[simp] theorem State.setFlags_wfifo (f : BitVec 4) : (s.setFlags f).wfifo = s.wfifo := rfl
@[simp] theorem State.setFlags_ws (f : BitVec 4) : (s.setFlags f).ws = s.ws := rfl
@[simp] theorem State.setFlags_wa (f : BitVec 4) : (s.setFlags f).wa = s.wa := rfl
@[simp] theorem State.setFlags_pending (f : BitVec 4) : (s.setFlags f).pending = s.pending := rfl
@[simp] theorem State.setFlags_stuck (f : BitVec 4) : (s.setFlags f).stuck = s.stuck := rfl
@[simp] theorem State.setFlags_mem (f : BitVec 4) : (s.setFlags f).mem = s.mem := rfl
@[simp] theorem State.setFlags_params (f : BitVec 4) : (s.setFlags f).params = s.params := rfl
@[simp] theorem State.setFlags_inputs (f : BitVec 4) : (s.setFlags f).inputs = s.inputs := rfl
@[simp] theorem State.setFlags_freeCtr (f : BitVec 4) : (s.setFlags f).freeCtr = s.freeCtr := rfl
@[simp] theorem State.setFlags_dmaSeen (f : BitVec 4) : (s.setFlags f).dmaSeen = s.dmaSeen := rfl

@[simp] theorem State.raise_ars (k : Fin 9) : (s.raise k).ars = s.ars := rfl
@[simp] theorem State.raise_grs (k : Fin 9) : (s.raise k).grs = s.grs := rfl
@[simp] theorem State.raise_ipc (k : Fin 9) : (s.raise k).ipc = s.ipc := rfl
@[simp] theorem State.raise_pswr (k : Fin 9) : (s.raise k).pswr = s.pswr := rfl
@[simp] theorem State.raise_gbs (k : Fin 9) : (s.raise k).gbs = s.gbs := rfl
@[simp] theorem State.raise_lbs (k : Fin 9) : (s.raise k).lbs = s.lbs := rfl
@[simp] theorem State.raise_gmicr (k : Fin 9) : (s.raise k).gmicr = s.gmicr := rfl
@[simp] theorem State.raise_lmicr (k : Fin 9) : (s.raise k).lmicr = s.lmicr := rfl
@[simp] theorem State.raise_port0 (k : Fin 9) : (s.raise k).port0 = s.port0 := rfl
@[simp] theorem State.raise_port1 (k : Fin 9) : (s.raise k).port1 = s.port1 := rfl
@[simp] theorem State.raise_timer0 (k : Fin 9) : (s.raise k).timer0 = s.timer0 := rfl
@[simp] theorem State.raise_timer1 (k : Fin 9) : (s.raise k).timer1 = s.timer1 := rfl
@[simp] theorem State.raise_f1cr (k : Fin 9) : (s.raise k).f1cr = s.f1cr := rfl
@[simp] theorem State.raise_f2cr (k : Fin 9) : (s.raise k).f2cr = s.f2cr := rfl
@[simp] theorem State.raise_nb1 (k : Fin 9) : (s.raise k).nb1 = s.nb1 := rfl
@[simp] theorem State.raise_nb2 (k : Fin 9) : (s.raise k).nb2 = s.nb2 := rfl
@[simp] theorem State.raise_sb1 (k : Fin 9) : (s.raise k).sb1 = s.sb1 := rfl
@[simp] theorem State.raise_sb2 (k : Fin 9) : (s.raise k).sb2 = s.sb2 := rfl
@[simp] theorem State.raise_vr (k : Fin 9) : (s.raise k).vr = s.vr := rfl
@[simp] theorem State.raise_afifo (k : Fin 9) : (s.raise k).afifo = s.afifo := rfl
@[simp] theorem State.raise_ram (k : Fin 9) : (s.raise k).ram = s.ram := rfl
@[simp] theorem State.raise_wfifo (k : Fin 9) : (s.raise k).wfifo = s.wfifo := rfl
@[simp] theorem State.raise_ws (k : Fin 9) : (s.raise k).ws = s.ws := rfl
@[simp] theorem State.raise_wa (k : Fin 9) : (s.raise k).wa = s.wa := rfl
@[simp] theorem State.raise_pending (k : Fin 9) : (s.raise k).pending = s.pending := rfl
@[simp] theorem State.raise_stuck (k : Fin 9) : (s.raise k).stuck = s.stuck := rfl
@[simp] theorem State.raise_mem (k : Fin 9) : (s.raise k).mem = s.mem := rfl
@[simp] theorem State.raise_params (k : Fin 9) : (s.raise k).params = s.params := rfl
@[simp] theorem State.raise_inputs (k : Fin 9) : (s.raise k).inputs = s.inputs := rfl
@[simp] theorem State.raise_freeCtr (k : Fin 9) : (s.raise k).freeCtr = s.freeCtr := rfl
@[simp] theorem State.raise_dmaSeen (k : Fin 9) : (s.raise k).dmaSeen = s.dmaSeen := rfl

@[simp] theorem State.setPort_ars (p : Unit2) (q : Port) : (s.setPort p q).ars = s.ars := by cases p <;> rfl
@[simp] theorem State.setPort_grs (p : Unit2) (q : Port) : (s.setPort p q).grs = s.grs := by cases p <;> rfl
@[simp] theorem State.setPort_ipc (p : Unit2) (q : Port) : (s.setPort p q).ipc = s.ipc := by cases p <;> rfl
@[simp] theorem State.setPort_pswr (p : Unit2) (q : Port) : (s.setPort p q).pswr = s.pswr := by cases p <;> rfl
@[simp] theorem State.setPort_ireq (p : Unit2) (q : Port) : (s.setPort p q).ireq = s.ireq := by cases p <;> rfl
@[simp] theorem State.setPort_gbs (p : Unit2) (q : Port) : (s.setPort p q).gbs = s.gbs := by cases p <;> rfl
@[simp] theorem State.setPort_lbs (p : Unit2) (q : Port) : (s.setPort p q).lbs = s.lbs := by cases p <;> rfl
@[simp] theorem State.setPort_gmicr (p : Unit2) (q : Port) : (s.setPort p q).gmicr = s.gmicr := by cases p <;> rfl
@[simp] theorem State.setPort_lmicr (p : Unit2) (q : Port) : (s.setPort p q).lmicr = s.lmicr := by cases p <;> rfl
@[simp] theorem State.setPort_timer0 (p : Unit2) (q : Port) : (s.setPort p q).timer0 = s.timer0 := by cases p <;> rfl
@[simp] theorem State.setPort_timer1 (p : Unit2) (q : Port) : (s.setPort p q).timer1 = s.timer1 := by cases p <;> rfl
@[simp] theorem State.setPort_f1cr (p : Unit2) (q : Port) : (s.setPort p q).f1cr = s.f1cr := by cases p <;> rfl
@[simp] theorem State.setPort_f2cr (p : Unit2) (q : Port) : (s.setPort p q).f2cr = s.f2cr := by cases p <;> rfl
@[simp] theorem State.setPort_nb1 (p : Unit2) (q : Port) : (s.setPort p q).nb1 = s.nb1 := by cases p <;> rfl
@[simp] theorem State.setPort_nb2 (p : Unit2) (q : Port) : (s.setPort p q).nb2 = s.nb2 := by cases p <;> rfl
@[simp] theorem State.setPort_sb1 (p : Unit2) (q : Port) : (s.setPort p q).sb1 = s.sb1 := by cases p <;> rfl
@[simp] theorem State.setPort_sb2 (p : Unit2) (q : Port) : (s.setPort p q).sb2 = s.sb2 := by cases p <;> rfl
@[simp] theorem State.setPort_vr (p : Unit2) (q : Port) : (s.setPort p q).vr = s.vr := by cases p <;> rfl
@[simp] theorem State.setPort_afifo (p : Unit2) (q : Port) : (s.setPort p q).afifo = s.afifo := by cases p <;> rfl
@[simp] theorem State.setPort_ram (p : Unit2) (q : Port) : (s.setPort p q).ram = s.ram := by cases p <;> rfl
@[simp] theorem State.setPort_wfifo (p : Unit2) (q : Port) : (s.setPort p q).wfifo = s.wfifo := by cases p <;> rfl
@[simp] theorem State.setPort_ws (p : Unit2) (q : Port) : (s.setPort p q).ws = s.ws := by cases p <;> rfl
@[simp] theorem State.setPort_wa (p : Unit2) (q : Port) : (s.setPort p q).wa = s.wa := by cases p <;> rfl
@[simp] theorem State.setPort_pending (p : Unit2) (q : Port) : (s.setPort p q).pending = s.pending := by cases p <;> rfl
@[simp] theorem State.setPort_stuck (p : Unit2) (q : Port) : (s.setPort p q).stuck = s.stuck := by cases p <;> rfl
@[simp] theorem State.setPort_mem (p : Unit2) (q : Port) : (s.setPort p q).mem = s.mem := by cases p <;> rfl
@[simp] theorem State.setPort_params (p : Unit2) (q : Port) : (s.setPort p q).params = s.params := by cases p <;> rfl
@[simp] theorem State.setPort_inputs (p : Unit2) (q : Port) : (s.setPort p q).inputs = s.inputs := by cases p <;> rfl
@[simp] theorem State.setPort_freeCtr (p : Unit2) (q : Port) : (s.setPort p q).freeCtr = s.freeCtr := by cases p <;> rfl
@[simp] theorem State.setPort_dmaSeen (p : Unit2) (q : Port) : (s.setPort p q).dmaSeen = s.dmaSeen := by cases p <;> rfl

@[simp] theorem State.setTimer_ars (n : Unit2) (q : Timer) : (s.setTimer n q).ars = s.ars := by cases n <;> rfl
@[simp] theorem State.setTimer_grs (n : Unit2) (q : Timer) : (s.setTimer n q).grs = s.grs := by cases n <;> rfl
@[simp] theorem State.setTimer_ipc (n : Unit2) (q : Timer) : (s.setTimer n q).ipc = s.ipc := by cases n <;> rfl
@[simp] theorem State.setTimer_pswr (n : Unit2) (q : Timer) : (s.setTimer n q).pswr = s.pswr := by cases n <;> rfl
@[simp] theorem State.setTimer_ireq (n : Unit2) (q : Timer) : (s.setTimer n q).ireq = s.ireq := by cases n <;> rfl
@[simp] theorem State.setTimer_gbs (n : Unit2) (q : Timer) : (s.setTimer n q).gbs = s.gbs := by cases n <;> rfl
@[simp] theorem State.setTimer_lbs (n : Unit2) (q : Timer) : (s.setTimer n q).lbs = s.lbs := by cases n <;> rfl
@[simp] theorem State.setTimer_gmicr (n : Unit2) (q : Timer) : (s.setTimer n q).gmicr = s.gmicr := by cases n <;> rfl
@[simp] theorem State.setTimer_lmicr (n : Unit2) (q : Timer) : (s.setTimer n q).lmicr = s.lmicr := by cases n <;> rfl
@[simp] theorem State.setTimer_port0 (n : Unit2) (q : Timer) : (s.setTimer n q).port0 = s.port0 := by cases n <;> rfl
@[simp] theorem State.setTimer_port1 (n : Unit2) (q : Timer) : (s.setTimer n q).port1 = s.port1 := by cases n <;> rfl
@[simp] theorem State.setTimer_f1cr (n : Unit2) (q : Timer) : (s.setTimer n q).f1cr = s.f1cr := by cases n <;> rfl
@[simp] theorem State.setTimer_f2cr (n : Unit2) (q : Timer) : (s.setTimer n q).f2cr = s.f2cr := by cases n <;> rfl
@[simp] theorem State.setTimer_nb1 (n : Unit2) (q : Timer) : (s.setTimer n q).nb1 = s.nb1 := by cases n <;> rfl
@[simp] theorem State.setTimer_nb2 (n : Unit2) (q : Timer) : (s.setTimer n q).nb2 = s.nb2 := by cases n <;> rfl
@[simp] theorem State.setTimer_sb1 (n : Unit2) (q : Timer) : (s.setTimer n q).sb1 = s.sb1 := by cases n <;> rfl
@[simp] theorem State.setTimer_sb2 (n : Unit2) (q : Timer) : (s.setTimer n q).sb2 = s.sb2 := by cases n <;> rfl
@[simp] theorem State.setTimer_vr (n : Unit2) (q : Timer) : (s.setTimer n q).vr = s.vr := by cases n <;> rfl
@[simp] theorem State.setTimer_afifo (n : Unit2) (q : Timer) : (s.setTimer n q).afifo = s.afifo := by cases n <;> rfl
@[simp] theorem State.setTimer_ram (n : Unit2) (q : Timer) : (s.setTimer n q).ram = s.ram := by cases n <;> rfl
@[simp] theorem State.setTimer_wfifo (n : Unit2) (q : Timer) : (s.setTimer n q).wfifo = s.wfifo := by cases n <;> rfl
@[simp] theorem State.setTimer_ws (n : Unit2) (q : Timer) : (s.setTimer n q).ws = s.ws := by cases n <;> rfl
@[simp] theorem State.setTimer_wa (n : Unit2) (q : Timer) : (s.setTimer n q).wa = s.wa := by cases n <;> rfl
@[simp] theorem State.setTimer_pending (n : Unit2) (q : Timer) : (s.setTimer n q).pending = s.pending := by cases n <;> rfl
@[simp] theorem State.setTimer_stuck (n : Unit2) (q : Timer) : (s.setTimer n q).stuck = s.stuck := by cases n <;> rfl
@[simp] theorem State.setTimer_mem (n : Unit2) (q : Timer) : (s.setTimer n q).mem = s.mem := by cases n <;> rfl
@[simp] theorem State.setTimer_params (n : Unit2) (q : Timer) : (s.setTimer n q).params = s.params := by cases n <;> rfl
@[simp] theorem State.setTimer_inputs (n : Unit2) (q : Timer) : (s.setTimer n q).inputs = s.inputs := by cases n <;> rfl
@[simp] theorem State.setTimer_freeCtr (n : Unit2) (q : Timer) : (s.setTimer n q).freeCtr = s.freeCtr := by cases n <;> rfl
@[simp] theorem State.setTimer_dmaSeen (n : Unit2) (q : Timer) : (s.setTimer n q).dmaSeen = s.dmaSeen := by cases n <;> rfl

@[simp] theorem State.write32_ars (a : Word) (v : Word) : (s.write32 a v).ars = s.ars := by unfold State.write32; split <;> rfl
@[simp] theorem State.write32_grs (a : Word) (v : Word) : (s.write32 a v).grs = s.grs := by unfold State.write32; split <;> rfl
@[simp] theorem State.write32_ipc (a : Word) (v : Word) : (s.write32 a v).ipc = s.ipc := by unfold State.write32; split <;> rfl
@[simp] theorem State.write32_pswr (a : Word) (v : Word) : (s.write32 a v).pswr = s.pswr := by unfold State.write32; split <;> rfl
@[simp] theorem State.write32_ireq (a : Word) (v : Word) : (s.write32 a v).ireq = s.ireq := by unfold State.write32; split <;> rfl
@[simp] theorem State.write32_gbs (a : Word) (v : Word) : (s.write32 a v).gbs = s.gbs := by unfold State.write32; split <;> rfl
@[simp] theorem State.write32_lbs (a : Word) (v : Word) : (s.write32 a v).lbs = s.lbs := by unfold State.write32; split <;> rfl
@[simp] theorem State.write32_gmicr (a : Word) (v : Word) : (s.write32 a v).gmicr = s.gmicr := by unfold State.write32; split <;> rfl
@[simp] theorem State.write32_lmicr (a : Word) (v : Word) : (s.write32 a v).lmicr = s.lmicr := by unfold State.write32; split <;> rfl
@[simp] theorem State.write32_port0 (a : Word) (v : Word) : (s.write32 a v).port0 = s.port0 := by unfold State.write32; split <;> rfl
@[simp] theorem State.write32_port1 (a : Word) (v : Word) : (s.write32 a v).port1 = s.port1 := by unfold State.write32; split <;> rfl
@[simp] theorem State.write32_timer0 (a : Word) (v : Word) : (s.write32 a v).timer0 = s.timer0 := by unfold State.write32; split <;> rfl
@[simp] theorem State.write32_timer1 (a : Word) (v : Word) : (s.write32 a v).timer1 = s.timer1 := by unfold State.write32; split <;> rfl
@[simp] theorem State.write32_f1cr (a : Word) (v : Word) : (s.write32 a v).f1cr = s.f1cr := by unfold State.write32; split <;> rfl
@[simp] theorem State.write32_f2cr (a : Word) (v : Word) : (s.write32 a v).f2cr = s.f2cr := by unfold State.write32; split <;> rfl
@[simp] theorem State.write32_nb1 (a : Word) (v : Word) : (s.write32 a v).nb1 = s.nb1 := by unfold State.write32; split <;> rfl
@[simp] theorem State.write32_nb2 (a : Word) (v : Word) : (s.write32 a v).nb2 = s.nb2 := by unfold State.write32; split <;> rfl
@[simp] theorem State.write32_sb1 (a : Word) (v : Word) : (s.write32 a v).sb1 = s.sb1 := by unfold State.write32; split <;> rfl
@[simp] theorem State.write32_sb2 (a : Word) (v : Word) : (s.write32 a v).sb2 = s.sb2 := by unfold State.write32; split <;> rfl
@[simp] theorem State.write32_vr (a : Word) (v : Word) : (s.write32 a v).vr = s.vr := by unfold State.write32; split <;> rfl
@[simp] theorem State.write32_afifo (a : Word) (v : Word) : (s.write32 a v).afifo = s.afifo := by unfold State.write32; split <;> rfl
@[simp] theorem State.write32_ram (a : Word) (v : Word) : (s.write32 a v).ram = s.ram := by unfold State.write32; split <;> rfl
@[simp] theorem State.write32_wfifo (a : Word) (v : Word) : (s.write32 a v).wfifo = s.wfifo := by unfold State.write32; split <;> rfl
@[simp] theorem State.write32_ws (a : Word) (v : Word) : (s.write32 a v).ws = s.ws := by unfold State.write32; split <;> rfl
@[simp] theorem State.write32_wa (a : Word) (v : Word) : (s.write32 a v).wa = s.wa := by unfold State.write32; split <;> rfl
@[simp] theorem State.write32_pending (a : Word) (v : Word) : (s.write32 a v).pending = s.pending := by unfold State.write32; split <;> rfl
@[simp] theorem State.write32_stuck (a : Word) (v : Word) : (s.write32 a v).stuck = s.stuck := by unfold State.write32; split <;> rfl
@[simp] theorem State.write32_params (a : Word) (v : Word) : (s.write32 a v).params = s.params := by unfold State.write32; split <;> rfl
@[simp] theorem State.write32_inputs (a : Word) (v : Word) : (s.write32 a v).inputs = s.inputs := by unfold State.write32; split <;> rfl
@[simp] theorem State.write32_freeCtr (a : Word) (v : Word) : (s.write32 a v).freeCtr = s.freeCtr := by unfold State.write32; split <;> rfl
@[simp] theorem State.write32_dmaSeen (a : Word) (v : Word) : (s.write32 a v).dmaSeen = s.dmaSeen := by unfold State.write32; split <;> rfl

@[simp] theorem State.write64_ars (a : Word) (v : Long) : (s.write64 a v).ars = s.ars := by simp [State.write64]
@[simp] theorem State.write64_grs (a : Word) (v : Long) : (s.write64 a v).grs = s.grs := by simp [State.write64]
@[simp] theorem State.write64_ipc (a : Word) (v : Long) : (s.write64 a v).ipc = s.ipc := by simp [State.write64]
@[simp] theorem State.write64_pswr (a : Word) (v : Long) : (s.write64 a v).pswr = s.pswr := by simp [State.write64]
@[simp] theorem State.write64_ireq (a : Word) (v : Long) : (s.write64 a v).ireq = s.ireq := by simp [State.write64]
@[simp] theorem State.write64_gbs (a : Word) (v : Long) : (s.write64 a v).gbs = s.gbs := by simp [State.write64]
@[simp] theorem State.write64_lbs (a : Word) (v : Long) : (s.write64 a v).lbs = s.lbs := by simp [State.write64]
@[simp] theorem State.write64_gmicr (a : Word) (v : Long) : (s.write64 a v).gmicr = s.gmicr := by simp [State.write64]
@[simp] theorem State.write64_lmicr (a : Word) (v : Long) : (s.write64 a v).lmicr = s.lmicr := by simp [State.write64]
@[simp] theorem State.write64_port0 (a : Word) (v : Long) : (s.write64 a v).port0 = s.port0 := by simp [State.write64]
@[simp] theorem State.write64_port1 (a : Word) (v : Long) : (s.write64 a v).port1 = s.port1 := by simp [State.write64]
@[simp] theorem State.write64_timer0 (a : Word) (v : Long) : (s.write64 a v).timer0 = s.timer0 := by simp [State.write64]
@[simp] theorem State.write64_timer1 (a : Word) (v : Long) : (s.write64 a v).timer1 = s.timer1 := by simp [State.write64]
@[simp] theorem State.write64_f1cr (a : Word) (v : Long) : (s.write64 a v).f1cr = s.f1cr := by simp [State.write64]
@[simp] theorem State.write64_f2cr (a : Word) (v : Long) : (s.write64 a v).f2cr = s.f2cr := by simp [State.write64]
@[simp] theorem State.write64_nb1 (a : Word) (v : Long) : (s.write64 a v).nb1 = s.nb1 := by simp [State.write64]
@[simp] theorem State.write64_nb2 (a : Word) (v : Long) : (s.write64 a v).nb2 = s.nb2 := by simp [State.write64]
@[simp] theorem State.write64_sb1 (a : Word) (v : Long) : (s.write64 a v).sb1 = s.sb1 := by simp [State.write64]
@[simp] theorem State.write64_sb2 (a : Word) (v : Long) : (s.write64 a v).sb2 = s.sb2 := by simp [State.write64]
@[simp] theorem State.write64_vr (a : Word) (v : Long) : (s.write64 a v).vr = s.vr := by simp [State.write64]
@[simp] theorem State.write64_afifo (a : Word) (v : Long) : (s.write64 a v).afifo = s.afifo := by simp [State.write64]
@[simp] theorem State.write64_ram (a : Word) (v : Long) : (s.write64 a v).ram = s.ram := by simp [State.write64]
@[simp] theorem State.write64_wfifo (a : Word) (v : Long) : (s.write64 a v).wfifo = s.wfifo := by simp [State.write64]
@[simp] theorem State.write64_ws (a : Word) (v : Long) : (s.write64 a v).ws = s.ws := by simp [State.write64]
@[simp] theorem State.write64_wa (a : Word) (v : Long) : (s.write64 a v).wa = s.wa := by simp [State.write64]
@[simp] theorem State.write64_pending (a : Word) (v : Long) : (s.write64 a v).pending = s.pending := by simp [State.write64]
@[simp] theorem State.write64_stuck (a : Word) (v : Long) : (s.write64 a v).stuck = s.stuck := by simp [State.write64]
@[simp] theorem State.write64_params (a : Word) (v : Long) : (s.write64 a v).params = s.params := by simp [State.write64]
@[simp] theorem State.write64_inputs (a : Word) (v : Long) : (s.write64 a v).inputs = s.inputs := by simp [State.write64]
@[simp] theorem State.write64_freeCtr (a : Word) (v : Long) : (s.write64 a v).freeCtr = s.freeCtr := by simp [State.write64]
@[simp] theorem State.write64_dmaSeen (a : Word) (v : Long) : (s.write64 a v).dmaSeen = s.dmaSeen := by simp [State.write64]

@[simp] theorem State.advance_ars (n : Word) : (s.advance n).ars = s.ars := rfl
@[simp] theorem State.advance_grs (n : Word) : (s.advance n).grs = s.grs := rfl
@[simp] theorem State.advance_pswr (n : Word) : (s.advance n).pswr = s.pswr := rfl
@[simp] theorem State.advance_ireq (n : Word) : (s.advance n).ireq = s.ireq := rfl
@[simp] theorem State.advance_gbs (n : Word) : (s.advance n).gbs = s.gbs := rfl
@[simp] theorem State.advance_lbs (n : Word) : (s.advance n).lbs = s.lbs := rfl
@[simp] theorem State.advance_gmicr (n : Word) : (s.advance n).gmicr = s.gmicr := rfl
@[simp] theorem State.advance_lmicr (n : Word) : (s.advance n).lmicr = s.lmicr := rfl
@[simp] theorem State.advance_port0 (n : Word) : (s.advance n).port0 = s.port0 := rfl
@[simp] theorem State.advance_port1 (n : Word) : (s.advance n).port1 = s.port1 := rfl
@[simp] theorem State.advance_timer0 (n : Word) : (s.advance n).timer0 = s.timer0 := rfl
@[simp] theorem State.advance_timer1 (n : Word) : (s.advance n).timer1 = s.timer1 := rfl
@[simp] theorem State.advance_f1cr (n : Word) : (s.advance n).f1cr = s.f1cr := rfl
@[simp] theorem State.advance_f2cr (n : Word) : (s.advance n).f2cr = s.f2cr := rfl
@[simp] theorem State.advance_nb1 (n : Word) : (s.advance n).nb1 = s.nb1 := rfl
@[simp] theorem State.advance_nb2 (n : Word) : (s.advance n).nb2 = s.nb2 := rfl
@[simp] theorem State.advance_sb1 (n : Word) : (s.advance n).sb1 = s.sb1 := rfl
@[simp] theorem State.advance_sb2 (n : Word) : (s.advance n).sb2 = s.sb2 := rfl
@[simp] theorem State.advance_vr (n : Word) : (s.advance n).vr = s.vr := rfl
@[simp] theorem State.advance_afifo (n : Word) : (s.advance n).afifo = s.afifo := rfl
@[simp] theorem State.advance_ram (n : Word) : (s.advance n).ram = s.ram := rfl
@[simp] theorem State.advance_wfifo (n : Word) : (s.advance n).wfifo = s.wfifo := rfl
@[simp] theorem State.advance_ws (n : Word) : (s.advance n).ws = s.ws := rfl
@[simp] theorem State.advance_wa (n : Word) : (s.advance n).wa = s.wa := rfl
@[simp] theorem State.advance_pending (n : Word) : (s.advance n).pending = s.pending := rfl
@[simp] theorem State.advance_stuck (n : Word) : (s.advance n).stuck = s.stuck := rfl
@[simp] theorem State.advance_mem (n : Word) : (s.advance n).mem = s.mem := rfl
@[simp] theorem State.advance_params (n : Word) : (s.advance n).params = s.params := rfl
@[simp] theorem State.advance_inputs (n : Word) : (s.advance n).inputs = s.inputs := rfl
@[simp] theorem State.advance_freeCtr (n : Word) : (s.advance n).freeCtr = s.freeCtr := rfl
@[simp] theorem State.advance_dmaSeen (n : Word) : (s.advance n).dmaSeen = s.dmaSeen := rfl

@[simp] theorem State.tickFree_ars : (s.tickFree).ars = s.ars := rfl
@[simp] theorem State.tickFree_grs : (s.tickFree).grs = s.grs := rfl
@[simp] theorem State.tickFree_ipc : (s.tickFree).ipc = s.ipc := rfl
@[simp] theorem State.tickFree_pswr : (s.tickFree).pswr = s.pswr := rfl
@[simp] theorem State.tickFree_ireq : (s.tickFree).ireq = s.ireq := rfl
@[simp] theorem State.tickFree_gbs : (s.tickFree).gbs = s.gbs := rfl
@[simp] theorem State.tickFree_lbs : (s.tickFree).lbs = s.lbs := rfl
@[simp] theorem State.tickFree_gmicr : (s.tickFree).gmicr = s.gmicr := rfl
@[simp] theorem State.tickFree_lmicr : (s.tickFree).lmicr = s.lmicr := rfl
@[simp] theorem State.tickFree_port0 : (s.tickFree).port0 = s.port0 := rfl
@[simp] theorem State.tickFree_port1 : (s.tickFree).port1 = s.port1 := rfl
@[simp] theorem State.tickFree_timer0 : (s.tickFree).timer0 = s.timer0 := rfl
@[simp] theorem State.tickFree_timer1 : (s.tickFree).timer1 = s.timer1 := rfl
@[simp] theorem State.tickFree_f1cr : (s.tickFree).f1cr = s.f1cr := rfl
@[simp] theorem State.tickFree_f2cr : (s.tickFree).f2cr = s.f2cr := rfl
@[simp] theorem State.tickFree_nb1 : (s.tickFree).nb1 = s.nb1 := rfl
@[simp] theorem State.tickFree_nb2 : (s.tickFree).nb2 = s.nb2 := rfl
@[simp] theorem State.tickFree_sb1 : (s.tickFree).sb1 = s.sb1 := rfl
@[simp] theorem State.tickFree_sb2 : (s.tickFree).sb2 = s.sb2 := rfl
@[simp] theorem State.tickFree_vr : (s.tickFree).vr = s.vr := rfl
@[simp] theorem State.tickFree_afifo : (s.tickFree).afifo = s.afifo := rfl
@[simp] theorem State.tickFree_ram : (s.tickFree).ram = s.ram := rfl
@[simp] theorem State.tickFree_wfifo : (s.tickFree).wfifo = s.wfifo := rfl
@[simp] theorem State.tickFree_ws : (s.tickFree).ws = s.ws := rfl
@[simp] theorem State.tickFree_wa : (s.tickFree).wa = s.wa := rfl
@[simp] theorem State.tickFree_pending : (s.tickFree).pending = s.pending := rfl
@[simp] theorem State.tickFree_stuck : (s.tickFree).stuck = s.stuck := rfl
@[simp] theorem State.tickFree_mem : (s.tickFree).mem = s.mem := rfl
@[simp] theorem State.tickFree_params : (s.tickFree).params = s.params := rfl
@[simp] theorem State.tickFree_inputs : (s.tickFree).inputs = s.inputs := rfl
@[simp] theorem State.tickFree_dmaSeen : (s.tickFree).dmaSeen = s.dmaSeen := rfl

@[simp] theorem State.noteSetUp_ars (v : Word) : (s.noteSetUp v).ars = s.ars := rfl
@[simp] theorem State.noteSetUp_grs (v : Word) : (s.noteSetUp v).grs = s.grs := rfl
@[simp] theorem State.noteSetUp_ipc (v : Word) : (s.noteSetUp v).ipc = s.ipc := rfl
@[simp] theorem State.noteSetUp_pswr (v : Word) : (s.noteSetUp v).pswr = s.pswr := rfl
@[simp] theorem State.noteSetUp_ireq (v : Word) : (s.noteSetUp v).ireq = s.ireq := rfl
@[simp] theorem State.noteSetUp_gbs (v : Word) : (s.noteSetUp v).gbs = s.gbs := rfl
@[simp] theorem State.noteSetUp_lbs (v : Word) : (s.noteSetUp v).lbs = s.lbs := rfl
@[simp] theorem State.noteSetUp_gmicr (v : Word) : (s.noteSetUp v).gmicr = s.gmicr := rfl
@[simp] theorem State.noteSetUp_lmicr (v : Word) : (s.noteSetUp v).lmicr = s.lmicr := rfl
@[simp] theorem State.noteSetUp_port0 (v : Word) : (s.noteSetUp v).port0 = s.port0 := rfl
@[simp] theorem State.noteSetUp_port1 (v : Word) : (s.noteSetUp v).port1 = s.port1 := rfl
@[simp] theorem State.noteSetUp_timer0 (v : Word) : (s.noteSetUp v).timer0 = s.timer0 := rfl
@[simp] theorem State.noteSetUp_timer1 (v : Word) : (s.noteSetUp v).timer1 = s.timer1 := rfl
@[simp] theorem State.noteSetUp_f1cr (v : Word) : (s.noteSetUp v).f1cr = s.f1cr := rfl
@[simp] theorem State.noteSetUp_f2cr (v : Word) : (s.noteSetUp v).f2cr = s.f2cr := rfl
@[simp] theorem State.noteSetUp_nb1 (v : Word) : (s.noteSetUp v).nb1 = s.nb1 := rfl
@[simp] theorem State.noteSetUp_nb2 (v : Word) : (s.noteSetUp v).nb2 = s.nb2 := rfl
@[simp] theorem State.noteSetUp_sb1 (v : Word) : (s.noteSetUp v).sb1 = s.sb1 := rfl
@[simp] theorem State.noteSetUp_sb2 (v : Word) : (s.noteSetUp v).sb2 = s.sb2 := rfl
@[simp] theorem State.noteSetUp_vr (v : Word) : (s.noteSetUp v).vr = s.vr := rfl
@[simp] theorem State.noteSetUp_afifo (v : Word) : (s.noteSetUp v).afifo = s.afifo := rfl
@[simp] theorem State.noteSetUp_ram (v : Word) : (s.noteSetUp v).ram = s.ram := rfl
@[simp] theorem State.noteSetUp_wfifo (v : Word) : (s.noteSetUp v).wfifo = s.wfifo := rfl
@[simp] theorem State.noteSetUp_ws (v : Word) : (s.noteSetUp v).ws = s.ws := rfl
@[simp] theorem State.noteSetUp_wa (v : Word) : (s.noteSetUp v).wa = s.wa := rfl
@[simp] theorem State.noteSetUp_pending (v : Word) : (s.noteSetUp v).pending = s.pending := rfl
@[simp] theorem State.noteSetUp_stuck (v : Word) : (s.noteSetUp v).stuck = s.stuck := rfl
@[simp] theorem State.noteSetUp_mem (v : Word) : (s.noteSetUp v).mem = s.mem := rfl
@[simp] theorem State.noteSetUp_params (v : Word) : (s.noteSetUp v).params = s.params := rfl
@[simp] theorem State.noteSetUp_inputs (v : Word) : (s.noteSetUp v).inputs = s.inputs := rfl
@[simp] theorem State.noteSetUp_freeCtr (v : Word) : (s.noteSetUp v).freeCtr = s.freeCtr := rfl
@[simp] theorem State.noteSetUp_dmaSeen (v : Word) : (s.noteSetUp v).dmaSeen = (s.dmaSeen || v != 0) := rfl

@[simp] theorem State.clearFifos_ars : (s.clearFifos).ars = s.ars := rfl
@[simp] theorem State.clearFifos_grs : (s.clearFifos).grs = s.grs := rfl
@[simp] theorem State.clearFifos_ipc : (s.clearFifos).ipc = s.ipc := rfl
@[simp] theorem State.clearFifos_pswr : (s.clearFifos).pswr = s.pswr := rfl
@[simp] theorem State.clearFifos_ireq : (s.clearFifos).ireq = s.ireq := rfl
@[simp] theorem State.clearFifos_gbs : (s.clearFifos).gbs = s.gbs := rfl
@[simp] theorem State.clearFifos_lbs : (s.clearFifos).lbs = s.lbs := rfl
@[simp] theorem State.clearFifos_gmicr : (s.clearFifos).gmicr = s.gmicr := rfl
@[simp] theorem State.clearFifos_lmicr : (s.clearFifos).lmicr = s.lmicr := rfl
@[simp] theorem State.clearFifos_port0 : (s.clearFifos).port0 = s.port0 := rfl
@[simp] theorem State.clearFifos_port1 : (s.clearFifos).port1 = s.port1 := rfl
@[simp] theorem State.clearFifos_timer0 : (s.clearFifos).timer0 = s.timer0 := rfl
@[simp] theorem State.clearFifos_timer1 : (s.clearFifos).timer1 = s.timer1 := rfl
@[simp] theorem State.clearFifos_f1cr : (s.clearFifos).f1cr = s.f1cr := rfl
@[simp] theorem State.clearFifos_f2cr : (s.clearFifos).f2cr = s.f2cr := rfl
@[simp] theorem State.clearFifos_nb1 : (s.clearFifos).nb1 = s.nb1 := rfl
@[simp] theorem State.clearFifos_nb2 : (s.clearFifos).nb2 = s.nb2 := rfl
@[simp] theorem State.clearFifos_sb1 : (s.clearFifos).sb1 = s.sb1 := rfl
@[simp] theorem State.clearFifos_sb2 : (s.clearFifos).sb2 = s.sb2 := rfl
@[simp] theorem State.clearFifos_vr : (s.clearFifos).vr = s.vr := rfl
@[simp] theorem State.clearFifos_ram : (s.clearFifos).ram = s.ram := rfl
@[simp] theorem State.clearFifos_ws : (s.clearFifos).ws = s.ws := rfl
@[simp] theorem State.clearFifos_wa : (s.clearFifos).wa = s.wa := rfl
@[simp] theorem State.clearFifos_pending : (s.clearFifos).pending = s.pending := rfl
@[simp] theorem State.clearFifos_stuck : (s.clearFifos).stuck = s.stuck := rfl
@[simp] theorem State.clearFifos_mem : (s.clearFifos).mem = s.mem := rfl
@[simp] theorem State.clearFifos_params : (s.clearFifos).params = s.params := rfl
@[simp] theorem State.clearFifos_inputs : (s.clearFifos).inputs = s.inputs := rfl
@[simp] theorem State.clearFifos_freeCtr : (s.clearFifos).freeCtr = s.freeCtr := rfl
@[simp] theorem State.clearFifos_dmaSeen : (s.clearFifos).dmaSeen = s.dmaSeen := rfl

@[simp] theorem State.block_ars : (s.block).ars = s.ars := rfl
@[simp] theorem State.block_grs : (s.block).grs = s.grs := rfl
@[simp] theorem State.block_ipc : (s.block).ipc = s.ipc := rfl
@[simp] theorem State.block_pswr : (s.block).pswr = s.pswr := rfl
@[simp] theorem State.block_ireq : (s.block).ireq = s.ireq := rfl
@[simp] theorem State.block_gbs : (s.block).gbs = s.gbs := rfl
@[simp] theorem State.block_lbs : (s.block).lbs = s.lbs := rfl
@[simp] theorem State.block_gmicr : (s.block).gmicr = s.gmicr := rfl
@[simp] theorem State.block_lmicr : (s.block).lmicr = s.lmicr := rfl
@[simp] theorem State.block_port0 : (s.block).port0 = s.port0 := rfl
@[simp] theorem State.block_port1 : (s.block).port1 = s.port1 := rfl
@[simp] theorem State.block_timer0 : (s.block).timer0 = s.timer0 := rfl
@[simp] theorem State.block_timer1 : (s.block).timer1 = s.timer1 := rfl
@[simp] theorem State.block_f1cr : (s.block).f1cr = s.f1cr := rfl
@[simp] theorem State.block_f2cr : (s.block).f2cr = s.f2cr := rfl
@[simp] theorem State.block_nb1 : (s.block).nb1 = s.nb1 := rfl
@[simp] theorem State.block_nb2 : (s.block).nb2 = s.nb2 := rfl
@[simp] theorem State.block_sb1 : (s.block).sb1 = s.sb1 := rfl
@[simp] theorem State.block_sb2 : (s.block).sb2 = s.sb2 := rfl
@[simp] theorem State.block_vr : (s.block).vr = s.vr := rfl
@[simp] theorem State.block_afifo : (s.block).afifo = s.afifo := rfl
@[simp] theorem State.block_ram : (s.block).ram = s.ram := rfl
@[simp] theorem State.block_wfifo : (s.block).wfifo = s.wfifo := rfl
@[simp] theorem State.block_ws : (s.block).ws = s.ws := rfl
@[simp] theorem State.block_wa : (s.block).wa = s.wa := rfl
@[simp] theorem State.block_pending : (s.block).pending = s.pending := rfl
@[simp] theorem State.block_mem : (s.block).mem = s.mem := rfl
@[simp] theorem State.block_params : (s.block).params = s.params := rfl
@[simp] theorem State.block_inputs : (s.block).inputs = s.inputs := rfl
@[simp] theorem State.block_freeCtr : (s.block).freeCtr = s.freeCtr := rfl
@[simp] theorem State.block_dmaSeen : (s.block).dmaSeen = s.dmaSeen := rfl

@[simp] theorem State.doFtw_ars : (s.doFtw).ars = s.ars := rfl
@[simp] theorem State.doFtw_grs : (s.doFtw).grs = s.grs := rfl
@[simp] theorem State.doFtw_ipc : (s.doFtw).ipc = s.ipc := rfl
@[simp] theorem State.doFtw_pswr : (s.doFtw).pswr = s.pswr := rfl
@[simp] theorem State.doFtw_ireq : (s.doFtw).ireq = s.ireq := rfl
@[simp] theorem State.doFtw_gbs : (s.doFtw).gbs = s.gbs := rfl
@[simp] theorem State.doFtw_lbs : (s.doFtw).lbs = s.lbs := rfl
@[simp] theorem State.doFtw_gmicr : (s.doFtw).gmicr = s.gmicr := rfl
@[simp] theorem State.doFtw_lmicr : (s.doFtw).lmicr = s.lmicr := rfl
@[simp] theorem State.doFtw_port0 : (s.doFtw).port0 = s.port0 := rfl
@[simp] theorem State.doFtw_port1 : (s.doFtw).port1 = s.port1 := rfl
@[simp] theorem State.doFtw_timer0 : (s.doFtw).timer0 = s.timer0 := rfl
@[simp] theorem State.doFtw_timer1 : (s.doFtw).timer1 = s.timer1 := rfl
@[simp] theorem State.doFtw_f1cr : (s.doFtw).f1cr = s.f1cr := rfl
@[simp] theorem State.doFtw_f2cr : (s.doFtw).f2cr = s.f2cr := rfl
@[simp] theorem State.doFtw_nb1 : (s.doFtw).nb1 = s.nb1 := rfl
@[simp] theorem State.doFtw_nb2 : (s.doFtw).nb2 = s.nb2 := rfl
@[simp] theorem State.doFtw_sb1 : (s.doFtw).sb1 = s.sb1 := rfl
@[simp] theorem State.doFtw_sb2 : (s.doFtw).sb2 = s.sb2 := rfl
@[simp] theorem State.doFtw_vr : (s.doFtw).vr = s.vr := rfl
@[simp] theorem State.doFtw_afifo : (s.doFtw).afifo = s.afifo := rfl
@[simp] theorem State.doFtw_ram : (s.doFtw).ram = s.ram := rfl
@[simp] theorem State.doFtw_wa : (s.doFtw).wa = s.wa := rfl
@[simp] theorem State.doFtw_pending : (s.doFtw).pending = s.pending := rfl
@[simp] theorem State.doFtw_stuck : (s.doFtw).stuck = s.stuck := rfl
@[simp] theorem State.doFtw_mem : (s.doFtw).mem = s.mem := rfl
@[simp] theorem State.doFtw_params : (s.doFtw).params = s.params := rfl
@[simp] theorem State.doFtw_inputs : (s.doFtw).inputs = s.inputs := rfl
@[simp] theorem State.doFtw_freeCtr : (s.doFtw).freeCtr = s.freeCtr := rfl
@[simp] theorem State.doFtw_dmaSeen : (s.doFtw).dmaSeen = s.dmaSeen := rfl

@[simp] theorem State.doWtw_ars : (s.doWtw).ars = s.ars := rfl
@[simp] theorem State.doWtw_grs : (s.doWtw).grs = s.grs := rfl
@[simp] theorem State.doWtw_ipc : (s.doWtw).ipc = s.ipc := rfl
@[simp] theorem State.doWtw_pswr : (s.doWtw).pswr = s.pswr := rfl
@[simp] theorem State.doWtw_ireq : (s.doWtw).ireq = s.ireq := rfl
@[simp] theorem State.doWtw_gbs : (s.doWtw).gbs = s.gbs := rfl
@[simp] theorem State.doWtw_lbs : (s.doWtw).lbs = s.lbs := rfl
@[simp] theorem State.doWtw_gmicr : (s.doWtw).gmicr = s.gmicr := rfl
@[simp] theorem State.doWtw_lmicr : (s.doWtw).lmicr = s.lmicr := rfl
@[simp] theorem State.doWtw_port0 : (s.doWtw).port0 = s.port0 := rfl
@[simp] theorem State.doWtw_port1 : (s.doWtw).port1 = s.port1 := rfl
@[simp] theorem State.doWtw_timer0 : (s.doWtw).timer0 = s.timer0 := rfl
@[simp] theorem State.doWtw_timer1 : (s.doWtw).timer1 = s.timer1 := rfl
@[simp] theorem State.doWtw_f1cr : (s.doWtw).f1cr = s.f1cr := rfl
@[simp] theorem State.doWtw_f2cr : (s.doWtw).f2cr = s.f2cr := rfl
@[simp] theorem State.doWtw_nb1 : (s.doWtw).nb1 = s.nb1 := rfl
@[simp] theorem State.doWtw_sb1 : (s.doWtw).sb1 = s.sb1 := rfl
@[simp] theorem State.doWtw_vr : (s.doWtw).vr = s.vr := rfl
@[simp] theorem State.doWtw_afifo : (s.doWtw).afifo = s.afifo := rfl
@[simp] theorem State.doWtw_ram : (s.doWtw).ram = s.ram := rfl
@[simp] theorem State.doWtw_wfifo : (s.doWtw).wfifo = s.wfifo := rfl
@[simp] theorem State.doWtw_ws : (s.doWtw).ws = s.ws := rfl
@[simp] theorem State.doWtw_pending : (s.doWtw).pending = s.pending := rfl
@[simp] theorem State.doWtw_stuck : (s.doWtw).stuck = s.stuck := rfl
@[simp] theorem State.doWtw_mem : (s.doWtw).mem = s.mem := rfl
@[simp] theorem State.doWtw_params : (s.doWtw).params = s.params := rfl
@[simp] theorem State.doWtw_inputs : (s.doWtw).inputs = s.inputs := rfl
@[simp] theorem State.doWtw_freeCtr : (s.doWtw).freeCtr = s.freeCtr := rfl
@[simp] theorem State.doWtw_dmaSeen : (s.doWtw).dmaSeen = s.dmaSeen := rfl

/-! ### What the updates change -/

@[simp] theorem State.advance_ipc (n : Word) : (s.advance n).ipc = s.ipc + n := rfl
@[simp] theorem State.block_stuck : s.block.stuck = true := rfl
@[simp] theorem State.clearFifos_wfifo : s.clearFifos.wfifo = if s.psw 15 then [] else s.wfifo := rfl
@[simp] theorem State.clearFifos_afifo : s.clearFifos.afifo = if s.psw 14 then [] else s.afifo := rfl

/-- Clearing twice is clearing once. -/
@[simp] theorem State.clearFifos_clearFifos : s.clearFifos.clearFifos = s.clearFifos := by
  unfold State.clearFifos
  cases h15 : s.psw 15 <;> cases h14 : s.psw 14 <;> simp_all [State.psw]

/-! ### The counters of a port -/

@[simp] theorem Port.setIcc_ica (q : Port) (v : Word) : (q.setIcc v).ica = q.ica := rfl
@[simp] theorem Port.setIcc_icc (q : Port) (v : Word) : (q.setIcc v).icc = v := rfl
@[simp] theorem Port.setIcc_oca (q : Port) (v : Word) : (q.setIcc v).oca = q.oca := rfl
@[simp] theorem Port.setIcc_occ (q : Port) (v : Word) : (q.setIcc v).occ = q.occ := rfl
@[simp] theorem Port.setIcc_dir (q : Port) (v : Word) : (q.setIcc v).dir = q.dir := rfl
@[simp] theorem Port.setIcc_inQ (q : Port) (v : Word) : (q.setIcc v).inQ = q.inQ := rfl
@[simp] theorem Port.setIcc_outQ (q : Port) (v : Word) : (q.setIcc v).outQ = q.outQ := rfl
@[simp] theorem Port.setOcc_ica (q : Port) (v : Word) : (q.setOcc v).ica = q.ica := rfl
@[simp] theorem Port.setOcc_icc (q : Port) (v : Word) : (q.setOcc v).icc = q.icc := rfl
@[simp] theorem Port.setOcc_oca (q : Port) (v : Word) : (q.setOcc v).oca = q.oca := rfl
@[simp] theorem Port.setOcc_occ (q : Port) (v : Word) : (q.setOcc v).occ = v := rfl
@[simp] theorem Port.setOcc_dir (q : Port) (v : Word) : (q.setOcc v).dir = q.dir := rfl
@[simp] theorem Port.setOcc_inQ (q : Port) (v : Word) : (q.setOcc v).inQ = q.inQ := rfl
@[simp] theorem Port.setOcc_outQ (q : Port) (v : Word) : (q.setOcc v).outQ = q.outQ := rfl
@[simp] theorem State.raise_ireq (k : Fin 9) : (s.raise k).ireq = s.ireq ||| BitVec.twoPow 9 k := rfl
@[simp] theorem State.doWtw_wa : s.doWtw.wa = s.ws := rfl
@[simp] theorem State.doWtw_nb2 : s.doWtw.nb2 = s.nb1 := rfl
@[simp] theorem State.doWtw_sb2 : s.doWtw.sb2 = s.sb1 := rfl
@[simp] theorem State.doFtw_ws : s.doFtw.ws = s.wfifo.take (rows s.sb1) := rfl
@[simp] theorem State.doFtw_wfifo : s.doFtw.wfifo = s.wfifo.drop (rows s.sb1) := rfl

/-! ### Accessors -/

/-- Reading an address register after writing one. -/
theorem State.ar_setAr (i j : Ix) (v : Word) : (s.setAr i v).ar j = if i = j then v else s.ar j := by
  simp [State.ar, State.setAr, Vector.getElem_set, Fin.ext_iff]

/-- Reading a general-purpose register after writing one. -/
theorem State.gr_setGr (i j : Ix) (v : Word) : (s.setGr i v).gr j = if i = j then v else s.gr j := by
  simp [State.gr, State.setGr, Vector.getElem_set, Fin.ext_iff]

@[simp] theorem State.ar_setAr_self (i : Ix) (v : Word) : (s.setAr i v).ar i = v := by simp [State.ar_setAr]
@[simp] theorem State.gr_setGr_self (i : Ix) (v : Word) : (s.setGr i v).gr i = v := by simp [State.gr_setGr]

/-- Equal register files give equal registers. -/
theorem State.ar_congr {s t : State} (h : t.ars = s.ars) (i : Ix) : t.ar i = s.ar i := by
  simp [State.ar, h]

/-- Equal register files give equal registers. -/
theorem State.gr_congr {s t : State} (h : t.grs = s.grs) (i : Ix) : t.gr i = s.gr i := by
  simp [State.gr, h]

/-- Bits of pswr depend on pswr only. -/
theorem State.psw_congr {s t : State} (h : t.pswr = s.pswr) (n : Nat) : t.psw n = s.psw n := by
  simp [State.psw, h]

@[simp] theorem State.ar_setGr (i : Ix) (v : Word) (j : Ix) : (s.setGr i v).ar j = s.ar j := State.ar_congr (by simp) j
@[simp] theorem State.ar_setFlags (f : BitVec 4) (j : Ix) : (s.setFlags f).ar j = s.ar j := State.ar_congr (by simp) j
@[simp] theorem State.ar_raise (k : Fin 9) (j : Ix) : (s.raise k).ar j = s.ar j := State.ar_congr (by simp) j
@[simp] theorem State.ar_write32 (a v : Word) (j : Ix) : (s.write32 a v).ar j = s.ar j := State.ar_congr (by simp) j
@[simp] theorem State.ar_write64 (a : Word) (v : Long) (j : Ix) : (s.write64 a v).ar j = s.ar j := State.ar_congr (by simp) j
@[simp] theorem State.ar_advance (n : Word) (j : Ix) : (s.advance n).ar j = s.ar j := State.ar_congr (by simp) j
@[simp] theorem State.ar_tickFree (j : Ix) : (s.tickFree).ar j = s.ar j := State.ar_congr (by simp) j
@[simp] theorem State.ar_noteSetUp (v : Word) (j : Ix) : (s.noteSetUp v).ar j = s.ar j := State.ar_congr (by simp) j
@[simp] theorem State.ar_clearFifos (j : Ix) : (s.clearFifos).ar j = s.ar j := State.ar_congr (by simp) j
@[simp] theorem State.ar_doFtw (j : Ix) : (s.doFtw).ar j = s.ar j := State.ar_congr (by simp) j
@[simp] theorem State.ar_doWtw (j : Ix) : (s.doWtw).ar j = s.ar j := State.ar_congr (by simp) j
@[simp] theorem State.gr_setAr (i : Ix) (v : Word) (j : Ix) : (s.setAr i v).gr j = s.gr j := State.gr_congr (by simp) j
@[simp] theorem State.gr_applyUpd (u : Option (Ix × Word)) (j : Ix) : (s.applyUpd u).gr j = s.gr j := State.gr_congr (by simp) j
@[simp] theorem State.gr_setFlags (f : BitVec 4) (j : Ix) : (s.setFlags f).gr j = s.gr j := State.gr_congr (by simp) j
@[simp] theorem State.gr_raise (k : Fin 9) (j : Ix) : (s.raise k).gr j = s.gr j := State.gr_congr (by simp) j
@[simp] theorem State.gr_write32 (a v : Word) (j : Ix) : (s.write32 a v).gr j = s.gr j := State.gr_congr (by simp) j
@[simp] theorem State.gr_write64 (a : Word) (v : Long) (j : Ix) : (s.write64 a v).gr j = s.gr j := State.gr_congr (by simp) j
@[simp] theorem State.gr_advance (n : Word) (j : Ix) : (s.advance n).gr j = s.gr j := State.gr_congr (by simp) j
@[simp] theorem State.gr_tickFree (j : Ix) : (s.tickFree).gr j = s.gr j := State.gr_congr (by simp) j
@[simp] theorem State.gr_noteSetUp (v : Word) (j : Ix) : (s.noteSetUp v).gr j = s.gr j := State.gr_congr (by simp) j
@[simp] theorem State.gr_clearFifos (j : Ix) : (s.clearFifos).gr j = s.gr j := State.gr_congr (by simp) j
@[simp] theorem State.gr_doFtw (j : Ix) : (s.doFtw).gr j = s.gr j := State.gr_congr (by simp) j
@[simp] theorem State.gr_doWtw (j : Ix) : (s.doWtw).gr j = s.gr j := State.gr_congr (by simp) j
@[simp] theorem State.psw_setAr (i : Ix) (v : Word) (j : Nat) : (s.setAr i v).psw j = s.psw j := State.psw_congr (by simp) j
@[simp] theorem State.psw_setGr (i : Ix) (v : Word) (j : Nat) : (s.setGr i v).psw j = s.psw j := State.psw_congr (by simp) j
@[simp] theorem State.psw_applyUpd (u : Option (Ix × Word)) (j : Nat) : (s.applyUpd u).psw j = s.psw j := State.psw_congr (by simp) j
@[simp] theorem State.psw_raise (k : Fin 9) (j : Nat) : (s.raise k).psw j = s.psw j := State.psw_congr (by simp) j
@[simp] theorem State.psw_write32 (a v : Word) (j : Nat) : (s.write32 a v).psw j = s.psw j := State.psw_congr (by simp) j
@[simp] theorem State.psw_write64 (a : Word) (v : Long) (j : Nat) : (s.write64 a v).psw j = s.psw j := State.psw_congr (by simp) j
@[simp] theorem State.psw_advance (n : Word) (j : Nat) : (s.advance n).psw j = s.psw j := State.psw_congr (by simp) j
@[simp] theorem State.psw_tickFree (j : Nat) : (s.tickFree).psw j = s.psw j := State.psw_congr (by simp) j
@[simp] theorem State.psw_noteSetUp (v : Word) (j : Nat) : (s.noteSetUp v).psw j = s.psw j := State.psw_congr (by simp) j
@[simp] theorem State.psw_clearFifos (j : Nat) : (s.clearFifos).psw j = s.psw j := State.psw_congr (by simp) j
@[simp] theorem State.psw_doFtw (j : Nat) : (s.doFtw).psw j = s.psw j := State.psw_congr (by simp) j
@[simp] theorem State.psw_doWtw (j : Nat) : (s.doWtw).psw j = s.psw j := State.psw_congr (by simp) j

/-- Flags written, flags read. -/
@[simp] theorem State.flags_setFlags (f : BitVec 4) : (s.setFlags f).flags = f := by
  simp only [State.flags, State.setFlags]
  apply BitVec.eq_of_getLsbD_eq
  intro i hi
  rw [BitVec.getLsbD_extractLsb', BitVec.getLsbD_append, if_pos (by omega)]
  simp [hi]

/-- The other bits of pswr stay when flags are written. -/
theorem State.psw_setFlags (f : BitVec 4) (n : Nat) :
    (s.setFlags f).psw n = if n < 4 then f.getLsbD n else s.psw n := by
  simp only [State.psw, State.setFlags, BitVec.getLsbD_append, BitVec.getLsbD_extractLsb']
  split
  · rfl
  · by_cases h : n < 32
    · have h1 : n - 4 < 28 := by omega
      have h2 : 4 + (n - 4) = n := by omega
      simp [h1, h2]
    · have h1 : ¬ n - 4 < 28 := by omega
      simp [h1, BitVec.getLsbD_of_ge s.pswr n (by omega)]

/-- The register an addressing mode updates. -/
theorem State.ar_applyUpd (u : Option (Ix × Word)) (j : Ix) :
    (s.applyUpd u).ar j = match u with
      | none => s.ar j
      | some (i, v) => if i = j then v else s.ar j := by
  cases u with
  | none => rfl
  | some p => exact State.ar_setAr s p.1 j p.2

end Sys2Proof.Machine
end

