-- ==== Sys2Proof/Laws/Ops.lean ====
section
/-! SUPPORT. For each shared operation what it can do, said once: if it answers a next state, then this. -/

namespace Sys2Proof.Machine

open Sys2Proof

/-! ### Dispatch -/

/-- Executing a constructor is executing the instruction of R264 it stands for. -/
theorem exec_eq_run (i : Instr) (s : State) : exec i s = run i.code s := by
  cases i
  case wtw p o => cases o <;> rfl
  all_goals rfl

/-! ### The right part -/

theorem State.mulWrite_pswr_high (s : State) (first keep : Bool) (d a : Ix) {n : Nat} (h : 4 ≤ n) :
    (s.mulWrite first keep d a).psw n = s.psw n := by
  have hn : ¬ n < 4 := by omega
  unfold State.mulWrite State.mulRegs
  repeat' split
  all_goals simp [State.psw_setFlags, hn]

theorem State.requestSpr_pswr (s : State) (fn : AluFn) (f : BitVec 4) : (s.requestSpr fn f).pswr = s.pswr := by
  unfold State.requestSpr; split <;> rfl

@[simp] theorem State.requestSpr_grs (s : State) (fn : AluFn) (f : BitVec 4) :
    (s.requestSpr fn f).grs = s.grs := by
  unfold State.requestSpr; split <;> rfl

theorem State.mulWrite_ars (s : State) (x y : Bool) (d a : Ix) : (s.mulWrite x y d a).ars = s.ars := by
  unfold State.mulWrite State.mulRegs; repeat' split
  all_goals rfl
theorem State.aluWrite_ars (s : State) (f : AluForm) (q : AluOut) (fn : AluFn) : (s.aluWrite f q fn).ars = s.ars := by
  unfold State.aluWrite State.requestSpr; repeat' split
  all_goals rfl
@[simp] theorem State.rightPart_ars (s : State) (r : SRight) : (s.rightPart r).ars = s.ars := by
  unfold State.rightPart; repeat' split
  all_goals first | rfl | exact State.mulWrite_ars .. | exact State.aluWrite_ars ..
theorem State.mulWrite_ipc (s : State) (x y : Bool) (d a : Ix) : (s.mulWrite x y d a).ipc = s.ipc := by
  unfold State.mulWrite State.mulRegs; repeat' split
  all_goals rfl
theorem State.aluWrite_ipc (s : State) (f : AluForm) (q : AluOut) (fn : AluFn) : (s.aluWrite f q fn).ipc = s.ipc := by
  unfold State.aluWrite State.requestSpr; repeat' split
  all_goals rfl
@[simp] theorem State.rightPart_ipc (s : State) (r : SRight) : (s.rightPart r).ipc = s.ipc := by
  unfold State.rightPart; repeat' split
  all_goals first | rfl | exact State.mulWrite_ipc .. | exact State.aluWrite_ipc ..
theorem State.mulWrite_gbs (s : State) (x y : Bool) (d a : Ix) : (s.mulWrite x y d a).gbs = s.gbs := by
  unfold State.mulWrite State.mulRegs; repeat' split
  all_goals rfl
theorem State.aluWrite_gbs (s : State) (f : AluForm) (q : AluOut) (fn : AluFn) : (s.aluWrite f q fn).gbs = s.gbs := by
  unfold State.aluWrite State.requestSpr; repeat' split
  all_goals rfl
@[simp] theorem State.rightPart_gbs (s : State) (r : SRight) : (s.rightPart r).gbs = s.gbs := by
  unfold State.rightPart; repeat' split
  all_goals first | rfl | exact State.mulWrite_gbs .. | exact State.aluWrite_gbs ..
theorem State.mulWrite_lbs (s : State) (x y : Bool) (d a : Ix) : (s.mulWrite x y d a).lbs = s.lbs := by
  unfold State.mulWrite State.mulRegs; repeat' split
  all_goals rfl
theorem State.aluWrite_lbs (s : State) (f : AluForm) (q : AluOut) (fn : AluFn) : (s.aluWrite f q fn).lbs = s.lbs := by
  unfold State.aluWrite State.requestSpr; repeat' split
  all_goals rfl
@[simp] theorem State.rightPart_lbs (s : State) (r : SRight) : (s.rightPart r).lbs = s.lbs := by
  unfold State.rightPart; repeat' split
  all_goals first | rfl | exact State.mulWrite_lbs .. | exact State.aluWrite_lbs ..
theorem State.mulWrite_gmicr (s : State) (x y : Bool) (d a : Ix) : (s.mulWrite x y d a).gmicr = s.gmicr := by
  unfold State.mulWrite State.mulRegs; repeat' split
  all_goals rfl
theorem State.aluWrite_gmicr (s : State) (f : AluForm) (q : AluOut) (fn : AluFn) : (s.aluWrite f q fn).gmicr = s.gmicr := by
  unfold State.aluWrite State.requestSpr; repeat' split
  all_goals rfl
@[simp] theorem State.rightPart_gmicr (s : State) (r : SRight) : (s.rightPart r).gmicr = s.gmicr := by
  unfold State.rightPart; repeat' split
  all_goals first | rfl | exact State.mulWrite_gmicr .. | exact State.aluWrite_gmicr ..
theorem State.mulWrite_lmicr (s : State) (x y : Bool) (d a : Ix) : (s.mulWrite x y d a).lmicr = s.lmicr := by
  unfold State.mulWrite State.mulRegs; repeat' split
  all_goals rfl
theorem State.aluWrite_lmicr (s : State) (f : AluForm) (q : AluOut) (fn : AluFn) : (s.aluWrite f q fn).lmicr = s.lmicr := by
  unfold State.aluWrite State.requestSpr; repeat' split
  all_goals rfl
@[simp] theorem State.rightPart_lmicr (s : State) (r : SRight) : (s.rightPart r).lmicr = s.lmicr := by
  unfold State.rightPart; repeat' split
  all_goals first | rfl | exact State.mulWrite_lmicr .. | exact State.aluWrite_lmicr ..
theorem State.mulWrite_port0 (s : State) (x y : Bool) (d a : Ix) : (s.mulWrite x y d a).port0 = s.port0 := by
  unfold State.mulWrite State.mulRegs; repeat' split
  all_goals rfl
theorem State.aluWrite_port0 (s : State) (f : AluForm) (q : AluOut) (fn : AluFn) : (s.aluWrite f q fn).port0 = s.port0 := by
  unfold State.aluWrite State.requestSpr; repeat' split
  all_goals rfl
@[simp] theorem State.rightPart_port0 (s : State) (r : SRight) : (s.rightPart r).port0 = s.port0 := by
  unfold State.rightPart; repeat' split
  all_goals first | rfl | exact State.mulWrite_port0 .. | exact State.aluWrite_port0 ..
theorem State.mulWrite_port1 (s : State) (x y : Bool) (d a : Ix) : (s.mulWrite x y d a).port1 = s.port1 := by
  unfold State.mulWrite State.mulRegs; repeat' split
  all_goals rfl
theorem State.aluWrite_port1 (s : State) (f : AluForm) (q : AluOut) (fn : AluFn) : (s.aluWrite f q fn).port1 = s.port1 := by
  unfold State.aluWrite State.requestSpr; repeat' split
  all_goals rfl
@[simp] theorem State.rightPart_port1 (s : State) (r : SRight) : (s.rightPart r).port1 = s.port1 := by
  unfold State.rightPart; repeat' split
  all_goals first | rfl | exact State.mulWrite_port1 .. | exact State.aluWrite_port1 ..
theorem State.mulWrite_timer0 (s : State) (x y : Bool) (d a : Ix) : (s.mulWrite x y d a).timer0 = s.timer0 := by
  unfold State.mulWrite State.mulRegs; repeat' split
  all_goals rfl
theorem State.aluWrite_timer0 (s : State) (f : AluForm) (q : AluOut) (fn : AluFn) : (s.aluWrite f q fn).timer0 = s.timer0 := by
  unfold State.aluWrite State.requestSpr; repeat' split
  all_goals rfl
@[simp] theorem State.rightPart_timer0 (s : State) (r : SRight) : (s.rightPart r).timer0 = s.timer0 := by
  unfold State.rightPart; repeat' split
  all_goals first | rfl | exact State.mulWrite_timer0 .. | exact State.aluWrite_timer0 ..
theorem State.mulWrite_timer1 (s : State) (x y : Bool) (d a : Ix) : (s.mulWrite x y d a).timer1 = s.timer1 := by
  unfold State.mulWrite State.mulRegs; repeat' split
  all_goals rfl
theorem State.aluWrite_timer1 (s : State) (f : AluForm) (q : AluOut) (fn : AluFn) : (s.aluWrite f q fn).timer1 = s.timer1 := by
  unfold State.aluWrite State.requestSpr; repeat' split
  all_goals rfl
@[simp] theorem State.rightPart_timer1 (s : State) (r : SRight) : (s.rightPart r).timer1 = s.timer1 := by
  unfold State.rightPart; repeat' split
  all_goals first | rfl | exact State.mulWrite_timer1 .. | exact State.aluWrite_timer1 ..
theorem State.mulWrite_f1cr (s : State) (x y : Bool) (d a : Ix) : (s.mulWrite x y d a).f1cr = s.f1cr := by
  unfold State.mulWrite State.mulRegs; repeat' split
  all_goals rfl
theorem State.aluWrite_f1cr (s : State) (f : AluForm) (q : AluOut) (fn : AluFn) : (s.aluWrite f q fn).f1cr = s.f1cr := by
  unfold State.aluWrite State.requestSpr; repeat' split
  all_goals rfl
@[simp] theorem State.rightPart_f1cr (s : State) (r : SRight) : (s.rightPart r).f1cr = s.f1cr := by
  unfold State.rightPart; repeat' split
  all_goals first | rfl | exact State.mulWrite_f1cr .. | exact State.aluWrite_f1cr ..
theorem State.mulWrite_f2cr (s : State) (x y : Bool) (d a : Ix) : (s.mulWrite x y d a).f2cr = s.f2cr := by
  unfold State.mulWrite State.mulRegs; repeat' split
  all_goals rfl
theorem State.aluWrite_f2cr (s : State) (f : AluForm) (q : AluOut) (fn : AluFn) : (s.aluWrite f q fn).f2cr = s.f2cr := by
  unfold State.aluWrite State.requestSpr; repeat' split
  all_goals rfl
@[simp] theorem State.rightPart_f2cr (s : State) (r : SRight) : (s.rightPart r).f2cr = s.f2cr := by
  unfold State.rightPart; repeat' split
  all_goals first | rfl | exact State.mulWrite_f2cr .. | exact State.aluWrite_f2cr ..
theorem State.mulWrite_nb1 (s : State) (x y : Bool) (d a : Ix) : (s.mulWrite x y d a).nb1 = s.nb1 := by
  unfold State.mulWrite State.mulRegs; repeat' split
  all_goals rfl
theorem State.aluWrite_nb1 (s : State) (f : AluForm) (q : AluOut) (fn : AluFn) : (s.aluWrite f q fn).nb1 = s.nb1 := by
  unfold State.aluWrite State.requestSpr; repeat' split
  all_goals rfl
@[simp] theorem State.rightPart_nb1 (s : State) (r : SRight) : (s.rightPart r).nb1 = s.nb1 := by
  unfold State.rightPart; repeat' split
  all_goals first | rfl | exact State.mulWrite_nb1 .. | exact State.aluWrite_nb1 ..
theorem State.mulWrite_nb2 (s : State) (x y : Bool) (d a : Ix) : (s.mulWrite x y d a).nb2 = s.nb2 := by
  unfold State.mulWrite State.mulRegs; repeat' split
  all_goals rfl
theorem State.aluWrite_nb2 (s : State) (f : AluForm) (q : AluOut) (fn : AluFn) : (s.aluWrite f q fn).nb2 = s.nb2 := by
  unfold State.aluWrite State.requestSpr; repeat' split
  all_goals rfl
@[simp] theorem State.rightPart_nb2 (s : State) (r : SRight) : (s.rightPart r).nb2 = s.nb2 := by
  unfold State.rightPart; repeat' split
  all_goals first | rfl | exact State.mulWrite_nb2 .. | exact State.aluWrite_nb2 ..
theorem State.mulWrite_sb1 (s : State) (x y : Bool) (d a : Ix) : (s.mulWrite x y d a).sb1 = s.sb1 := by
  unfold State.mulWrite State.mulRegs; repeat' split
  all_goals rfl
theorem State.aluWrite_sb1 (s : State) (f : AluForm) (q : AluOut) (fn : AluFn) : (s.aluWrite f q fn).sb1 = s.sb1 := by
  unfold State.aluWrite State.requestSpr; repeat' split
  all_goals rfl
@[simp] theorem State.rightPart_sb1 (s : State) (r : SRight) : (s.rightPart r).sb1 = s.sb1 := by
  unfold State.rightPart; repeat' split
  all_goals first | rfl | exact State.mulWrite_sb1 .. | exact State.aluWrite_sb1 ..
theorem State.mulWrite_sb2 (s : State) (x y : Bool) (d a : Ix) : (s.mulWrite x y d a).sb2 = s.sb2 := by
  unfold State.mulWrite State.mulRegs; repeat' split
  all_goals rfl
theorem State.aluWrite_sb2 (s : State) (f : AluForm) (q : AluOut) (fn : AluFn) : (s.aluWrite f q fn).sb2 = s.sb2 := by
  unfold State.aluWrite State.requestSpr; repeat' split
  all_goals rfl
@[simp] theorem State.rightPart_sb2 (s : State) (r : SRight) : (s.rightPart r).sb2 = s.sb2 := by
  unfold State.rightPart; repeat' split
  all_goals first | rfl | exact State.mulWrite_sb2 .. | exact State.aluWrite_sb2 ..
theorem State.mulWrite_vr (s : State) (x y : Bool) (d a : Ix) : (s.mulWrite x y d a).vr = s.vr := by
  unfold State.mulWrite State.mulRegs; repeat' split
  all_goals rfl
theorem State.aluWrite_vr (s : State) (f : AluForm) (q : AluOut) (fn : AluFn) : (s.aluWrite f q fn).vr = s.vr := by
  unfold State.aluWrite State.requestSpr; repeat' split
  all_goals rfl
@[simp] theorem State.rightPart_vr (s : State) (r : SRight) : (s.rightPart r).vr = s.vr := by
  unfold State.rightPart; repeat' split
  all_goals first | rfl | exact State.mulWrite_vr .. | exact State.aluWrite_vr ..
theorem State.mulWrite_afifo (s : State) (x y : Bool) (d a : Ix) : (s.mulWrite x y d a).afifo = s.afifo := by
  unfold State.mulWrite State.mulRegs; repeat' split
  all_goals rfl
theorem State.aluWrite_afifo (s : State) (f : AluForm) (q : AluOut) (fn : AluFn) : (s.aluWrite f q fn).afifo = s.afifo := by
  unfold State.aluWrite State.requestSpr; repeat' split
  all_goals rfl
@[simp] theorem State.rightPart_afifo (s : State) (r : SRight) : (s.rightPart r).afifo = s.afifo := by
  unfold State.rightPart; repeat' split
  all_goals first | rfl | exact State.mulWrite_afifo .. | exact State.aluWrite_afifo ..
theorem State.mulWrite_ram (s : State) (x y : Bool) (d a : Ix) : (s.mulWrite x y d a).ram = s.ram := by
  unfold State.mulWrite State.mulRegs; repeat' split
  all_goals rfl
theorem State.aluWrite_ram (s : State) (f : AluForm) (q : AluOut) (fn : AluFn) : (s.aluWrite f q fn).ram = s.ram := by
  unfold State.aluWrite State.requestSpr; repeat' split
  all_goals rfl
@[simp] theorem State.rightPart_ram (s : State) (r : SRight) : (s.rightPart r).ram = s.ram := by
  unfold State.rightPart; repeat' split
  all_goals first | rfl | exact State.mulWrite_ram .. | exact State.aluWrite_ram ..
theorem State.mulWrite_wfifo (s : State) (x y : Bool) (d a : Ix) : (s.mulWrite x y d a).wfifo = s.wfifo := by
  unfold State.mulWrite State.mulRegs; repeat' split
  all_goals rfl
theorem State.aluWrite_wfifo (s : State) (f : AluForm) (q : AluOut) (fn : AluFn) : (s.aluWrite f q fn).wfifo = s.wfifo := by
  unfold State.aluWrite State.requestSpr; repeat' split
  all_goals rfl
@[simp] theorem State.rightPart_wfifo (s : State) (r : SRight) : (s.rightPart r).wfifo = s.wfifo := by
  unfold State.rightPart; repeat' split
  all_goals first | rfl | exact State.mulWrite_wfifo .. | exact State.aluWrite_wfifo ..
theorem State.mulWrite_ws (s : State) (x y : Bool) (d a : Ix) : (s.mulWrite x y d a).ws = s.ws := by
  unfold State.mulWrite State.mulRegs; repeat' split
  all_goals rfl
theorem State.aluWrite_ws (s : State) (f : AluForm) (q : AluOut) (fn : AluFn) : (s.aluWrite f q fn).ws = s.ws := by
  unfold State.aluWrite State.requestSpr; repeat' split
  all_goals rfl
@[simp] theorem State.rightPart_ws (s : State) (r : SRight) : (s.rightPart r).ws = s.ws := by
  unfold State.rightPart; repeat' split
  all_goals first | rfl | exact State.mulWrite_ws .. | exact State.aluWrite_ws ..
theorem State.mulWrite_wa (s : State) (x y : Bool) (d a : Ix) : (s.mulWrite x y d a).wa = s.wa := by
  unfold State.mulWrite State.mulRegs; repeat' split
  all_goals rfl
theorem State.aluWrite_wa (s : State) (f : AluForm) (q : AluOut) (fn : AluFn) : (s.aluWrite f q fn).wa = s.wa := by
  unfold State.aluWrite State.requestSpr; repeat' split
  all_goals rfl
@[simp] theorem State.rightPart_wa (s : State) (r : SRight) : (s.rightPart r).wa = s.wa := by
  unfold State.rightPart; repeat' split
  all_goals first | rfl | exact State.mulWrite_wa .. | exact State.aluWrite_wa ..
theorem State.mulWrite_pending (s : State) (x y : Bool) (d a : Ix) : (s.mulWrite x y d a).pending = s.pending := by
  unfold State.mulWrite State.mulRegs; repeat' split
  all_goals rfl
theorem State.aluWrite_pending (s : State) (f : AluForm) (q : AluOut) (fn : AluFn) : (s.aluWrite f q fn).pending = s.pending := by
  unfold State.aluWrite State.requestSpr; repeat' split
  all_goals rfl
@[simp] theorem State.rightPart_pending (s : State) (r : SRight) : (s.rightPart r).pending = s.pending := by
  unfold State.rightPart; repeat' split
  all_goals first | rfl | exact State.mulWrite_pending .. | exact State.aluWrite_pending ..
theorem State.mulWrite_stuck (s : State) (x y : Bool) (d a : Ix) : (s.mulWrite x y d a).stuck = s.stuck := by
  unfold State.mulWrite State.mulRegs; repeat' split
  all_goals rfl
theorem State.aluWrite_stuck (s : State) (f : AluForm) (q : AluOut) (fn : AluFn) : (s.aluWrite f q fn).stuck = s.stuck := by
  unfold State.aluWrite State.requestSpr; repeat' split
  all_goals rfl
@[simp] theorem State.rightPart_stuck (s : State) (r : SRight) : (s.rightPart r).stuck = s.stuck := by
  unfold State.rightPart; repeat' split
  all_goals first | rfl | exact State.mulWrite_stuck .. | exact State.aluWrite_stuck ..
theorem State.mulWrite_mem (s : State) (x y : Bool) (d a : Ix) : (s.mulWrite x y d a).mem = s.mem := by
  unfold State.mulWrite State.mulRegs; repeat' split
  all_goals rfl
theorem State.aluWrite_mem (s : State) (f : AluForm) (q : AluOut) (fn : AluFn) : (s.aluWrite f q fn).mem = s.mem := by
  unfold State.aluWrite State.requestSpr; repeat' split
  all_goals rfl
@[simp] theorem State.rightPart_mem (s : State) (r : SRight) : (s.rightPart r).mem = s.mem := by
  unfold State.rightPart; repeat' split
  all_goals first | rfl | exact State.mulWrite_mem .. | exact State.aluWrite_mem ..
theorem State.mulWrite_params (s : State) (x y : Bool) (d a : Ix) : (s.mulWrite x y d a).params = s.params := by
  unfold State.mulWrite State.mulRegs; repeat' split
  all_goals rfl
theorem State.aluWrite_params (s : State) (f : AluForm) (q : AluOut) (fn : AluFn) : (s.aluWrite f q fn).params = s.params := by
  unfold State.aluWrite State.requestSpr; repeat' split
  all_goals rfl
@[simp] theorem State.rightPart_params (s : State) (r : SRight) : (s.rightPart r).params = s.params := by
  unfold State.rightPart; repeat' split
  all_goals first | rfl | exact State.mulWrite_params .. | exact State.aluWrite_params ..
theorem State.mulWrite_inputs (s : State) (x y : Bool) (d a : Ix) : (s.mulWrite x y d a).inputs = s.inputs := by
  unfold State.mulWrite State.mulRegs; repeat' split
  all_goals rfl
theorem State.aluWrite_inputs (s : State) (f : AluForm) (q : AluOut) (fn : AluFn) : (s.aluWrite f q fn).inputs = s.inputs := by
  unfold State.aluWrite State.requestSpr; repeat' split
  all_goals rfl
@[simp] theorem State.rightPart_inputs (s : State) (r : SRight) : (s.rightPart r).inputs = s.inputs := by
  unfold State.rightPart; repeat' split
  all_goals first | rfl | exact State.mulWrite_inputs .. | exact State.aluWrite_inputs ..
theorem State.mulWrite_freeCtr (s : State) (x y : Bool) (d a : Ix) : (s.mulWrite x y d a).freeCtr = s.freeCtr := by
  unfold State.mulWrite State.mulRegs; repeat' split
  all_goals rfl
theorem State.aluWrite_freeCtr (s : State) (f : AluForm) (q : AluOut) (fn : AluFn) : (s.aluWrite f q fn).freeCtr = s.freeCtr := by
  unfold State.aluWrite State.requestSpr; repeat' split
  all_goals rfl
@[simp] theorem State.rightPart_freeCtr (s : State) (r : SRight) : (s.rightPart r).freeCtr = s.freeCtr := by
  unfold State.rightPart; repeat' split
  all_goals first | rfl | exact State.mulWrite_freeCtr .. | exact State.aluWrite_freeCtr ..
theorem State.mulWrite_dmaSeen (s : State) (x y : Bool) (d a : Ix) : (s.mulWrite x y d a).dmaSeen = s.dmaSeen := by
  unfold State.mulWrite State.mulRegs; repeat' split
  all_goals rfl
theorem State.aluWrite_dmaSeen (s : State) (f : AluForm) (q : AluOut) (fn : AluFn) : (s.aluWrite f q fn).dmaSeen = s.dmaSeen := by
  unfold State.aluWrite State.requestSpr; repeat' split
  all_goals rfl
@[simp] theorem State.rightPart_dmaSeen (s : State) (r : SRight) : (s.rightPart r).dmaSeen = s.dmaSeen := by
  unfold State.rightPart; repeat' split
  all_goals first | rfl | exact State.mulWrite_dmaSeen .. | exact State.aluWrite_dmaSeen ..

@[simp] theorem State.rightPart_ar (s : State) (r : SRight) (i : Ix) : (s.rightPart r).ar i = s.ar i :=
  State.ar_congr (by simp) i

/-- A right part leaves pswr bits 31:4 alone. -/
theorem State.rightPart_psw (s : State) (r : SRight) {n : Nat} (h : 4 ≤ n) :
    (s.rightPart r).psw n = s.psw n := by
  have hn : ¬ n < 4 := by omega
  unfold State.rightPart
  repeat' split
  all_goals first
    | rfl
    | exact State.mulWrite_pswr_high _ _ _ _ _ h
    | (unfold State.aluWrite; split <;>
        simp [State.psw_congr (State.requestSpr_pswr _ _ _), State.psw_setFlags, hn])
    | simp [State.psw_setFlags, hn]

/-- A right part writes the general-purpose registers it names only. -/
theorem State.rightPart_gr (s : State) (r : SRight) {j : Ix} (h : j ∉ r.grWrites) :
    (s.rightPart r).gr j = s.gr j := by
  have mul : ∀ (x y : Bool) (d a : Ix), j ≠ d → j ≠ 7 → (s.mulWrite x y d a).gr j = s.gr j := by
    intro x y d a h1 h2
    unfold State.mulWrite State.mulRegs
    repeat' split
    all_goals simp [State.gr_setGr, Ne.symm h1, Ne.symm h2]
  have alu : ∀ (f : AluForm) (q : AluOut) (fn : AluFn), j ∉ f.dst.toList → (s.aluWrite f q fn).gr j = s.gr j := by
    intro f q fn hf
    cases f with
    | std d =>
      have hd : d ≠ j := by rintro rfl; simp [AluForm.dst] at hf
      rw [State.aluWrite, State.gr_congr (State.requestSpr_grs _ _ _)]
      simp [State.gr_setGr, hd]
    | flagsOnly => rw [State.aluWrite, State.gr_congr (State.requestSpr_grs _ _ _)]; simp
    | noflags d =>
      have hd : d ≠ j := by rintro rfl; simp [AluForm.dst] at hf
      simp [State.aluWrite, State.gr_setGr, hd]
  cases r with
  | nul => rfl
  | shift k d a n =>
    simp only [SRight.grWrites] at h
    simp only [State.rightPart]
    split
    · rfl
    · next hn =>
      rw [if_neg hn] at h
      have hd : d ≠ j := by rintro rfl; simp at h
      simp [State.gr_setGr, hd]
  | alu f fn a b =>
    simp only [SRight.grWrites, List.mem_append, not_or] at h
    cases fn
    case mulFirst =>
      simp [AluFn.isMul] at h
      cases f <;> simp [AluForm.dst] at h <;> simp only [State.rightPart]
      · exact mul _ _ _ _ (Ne.symm h.1) h.2
      · exact mul _ _ _ _ (Ne.symm h.1) h.2
    case mulNext =>
      simp [AluFn.isMul] at h
      cases f <;> simp [AluForm.dst] at h <;> simp only [State.rightPart]
      · exact mul _ _ _ _ (Ne.symm h.1) h.2
      · exact mul _ _ _ _ (Ne.symm h.1) h.2
    all_goals exact alu _ _ _ h.1

/-! ### Register writes -/

@[simp] theorem State.writeSpec_ipc (s : State) (r : SpecReg) (v : Word) : (s.writeSpec r v).ipc = s.ipc := by
  cases r <;> rfl
@[simp] theorem State.writeReg_ipc (s : State) (r : Reg) (v : Long) : (s.writeReg r v).ipc = s.ipc := by
  unfold State.writeReg State.writeHalf State.writeVReg; repeat' split
  all_goals simp
@[simp] theorem State.writeSpec_ireq (s : State) (r : SpecReg) (v : Word) : (s.writeSpec r v).ireq = s.ireq := by
  cases r <;> rfl
@[simp] theorem State.writeReg_ireq (s : State) (r : Reg) (v : Long) : (s.writeReg r v).ireq = s.ireq := by
  unfold State.writeReg State.writeHalf State.writeVReg; repeat' split
  all_goals simp
@[simp] theorem State.writeSpec_gbs (s : State) (r : SpecReg) (v : Word) : (s.writeSpec r v).gbs = s.gbs := by
  cases r <;> rfl
@[simp] theorem State.writeReg_gbs (s : State) (r : Reg) (v : Long) : (s.writeReg r v).gbs = s.gbs := by
  unfold State.writeReg State.writeHalf State.writeVReg; repeat' split
  all_goals simp
@[simp] theorem State.writeSpec_lbs (s : State) (r : SpecReg) (v : Word) : (s.writeSpec r v).lbs = s.lbs := by
  cases r <;> rfl
@[simp] theorem State.writeReg_lbs (s : State) (r : Reg) (v : Long) : (s.writeReg r v).lbs = s.lbs := by
  unfold State.writeReg State.writeHalf State.writeVReg; repeat' split
  all_goals simp
@[simp] theorem State.writeSpec_nb2 (s : State) (r : SpecReg) (v : Word) : (s.writeSpec r v).nb2 = s.nb2 := by
  cases r <;> rfl
@[simp] theorem State.writeReg_nb2 (s : State) (r : Reg) (v : Long) : (s.writeReg r v).nb2 = s.nb2 := by
  unfold State.writeReg State.writeHalf State.writeVReg; repeat' split
  all_goals simp
@[simp] theorem State.writeSpec_sb2 (s : State) (r : SpecReg) (v : Word) : (s.writeSpec r v).sb2 = s.sb2 := by
  cases r <;> rfl
@[simp] theorem State.writeReg_sb2 (s : State) (r : Reg) (v : Long) : (s.writeReg r v).sb2 = s.sb2 := by
  unfold State.writeReg State.writeHalf State.writeVReg; repeat' split
  all_goals simp
@[simp] theorem State.writeSpec_afifo (s : State) (r : SpecReg) (v : Word) : (s.writeSpec r v).afifo = s.afifo := by
  cases r <;> rfl
@[simp] theorem State.writeReg_afifo (s : State) (r : Reg) (v : Long) : (s.writeReg r v).afifo = s.afifo := by
  unfold State.writeReg State.writeHalf State.writeVReg; repeat' split
  all_goals simp
@[simp] theorem State.writeSpec_ram (s : State) (r : SpecReg) (v : Word) : (s.writeSpec r v).ram = s.ram := by
  cases r <;> rfl
@[simp] theorem State.writeReg_ram (s : State) (r : Reg) (v : Long) : (s.writeReg r v).ram = s.ram := by
  unfold State.writeReg State.writeHalf State.writeVReg; repeat' split
  all_goals simp
@[simp] theorem State.writeSpec_wfifo (s : State) (r : SpecReg) (v : Word) : (s.writeSpec r v).wfifo = s.wfifo := by
  cases r <;> rfl
@[simp] theorem State.writeReg_wfifo (s : State) (r : Reg) (v : Long) : (s.writeReg r v).wfifo = s.wfifo := by
  unfold State.writeReg State.writeHalf State.writeVReg; repeat' split
  all_goals simp
@[simp] theorem State.writeSpec_ws (s : State) (r : SpecReg) (v : Word) : (s.writeSpec r v).ws = s.ws := by
  cases r <;> rfl
@[simp] theorem State.writeReg_ws (s : State) (r : Reg) (v : Long) : (s.writeReg r v).ws = s.ws := by
  unfold State.writeReg State.writeHalf State.writeVReg; repeat' split
  all_goals simp
@[simp] theorem State.writeSpec_wa (s : State) (r : SpecReg) (v : Word) : (s.writeSpec r v).wa = s.wa := by
  cases r <;> rfl
@[simp] theorem State.writeReg_wa (s : State) (r : Reg) (v : Long) : (s.writeReg r v).wa = s.wa := by
  unfold State.writeReg State.writeHalf State.writeVReg; repeat' split
  all_goals simp
@[simp] theorem State.writeSpec_pending (s : State) (r : SpecReg) (v : Word) : (s.writeSpec r v).pending = s.pending := by
  cases r <;> rfl
@[simp] theorem State.writeReg_pending (s : State) (r : Reg) (v : Long) : (s.writeReg r v).pending = s.pending := by
  unfold State.writeReg State.writeHalf State.writeVReg; repeat' split
  all_goals simp
@[simp] theorem State.writeSpec_stuck (s : State) (r : SpecReg) (v : Word) : (s.writeSpec r v).stuck = s.stuck := by
  cases r <;> rfl
@[simp] theorem State.writeReg_stuck (s : State) (r : Reg) (v : Long) : (s.writeReg r v).stuck = s.stuck := by
  unfold State.writeReg State.writeHalf State.writeVReg; repeat' split
  all_goals simp
@[simp] theorem State.writeSpec_mem (s : State) (r : SpecReg) (v : Word) : (s.writeSpec r v).mem = s.mem := by
  cases r <;> rfl
@[simp] theorem State.writeReg_mem (s : State) (r : Reg) (v : Long) : (s.writeReg r v).mem = s.mem := by
  unfold State.writeReg State.writeHalf State.writeVReg; repeat' split
  all_goals simp
@[simp] theorem State.writeSpec_params (s : State) (r : SpecReg) (v : Word) : (s.writeSpec r v).params = s.params := by
  cases r <;> rfl
@[simp] theorem State.writeReg_params (s : State) (r : Reg) (v : Long) : (s.writeReg r v).params = s.params := by
  unfold State.writeReg State.writeHalf State.writeVReg; repeat' split
  all_goals simp
@[simp] theorem State.writeSpec_inputs (s : State) (r : SpecReg) (v : Word) : (s.writeSpec r v).inputs = s.inputs := by
  cases r <;> rfl
@[simp] theorem State.writeReg_inputs (s : State) (r : Reg) (v : Long) : (s.writeReg r v).inputs = s.inputs := by
  unfold State.writeReg State.writeHalf State.writeVReg; repeat' split
  all_goals simp
@[simp] theorem State.writeSpec_freeCtr (s : State) (r : SpecReg) (v : Word) : (s.writeSpec r v).freeCtr = s.freeCtr := by
  cases r <;> rfl
@[simp] theorem State.writeReg_freeCtr (s : State) (r : Reg) (v : Long) : (s.writeReg r v).freeCtr = s.freeCtr := by
  unfold State.writeReg State.writeHalf State.writeVReg; repeat' split
  all_goals simp
/-- A write notes DMA activity where it sets a channel up, and never takes the note back (R73). -/
theorem State.writeSpec_dmaSeen (s : State) (r : SpecReg) (v : Word) : (s.writeSpec r v).dmaSeen =
    (s.dmaSeen || match r with | .icc0 | .icc1 | .occ0 | .occ1 => v != 0 | _ => false) := by
  cases r <;> simp [State.writeSpec, State.noteSetUp]
theorem State.writeReg_dmaSeen (s : State) (r : Reg) (v : Long) (h : s.dmaSeen = true) :
    (s.writeReg r v).dmaSeen = true := by
  unfold State.writeReg State.writeHalf State.writeVReg; repeat' split
  all_goals simp [State.writeSpec_dmaSeen, h]

/-! ### Frames on the stack -/

/-- A pushed frame (R490). -/
theorem State.pushFrame_ok {s t : State} {hi lo : Word} (h : s.pushFrame hi lo = .ok t) :
    s.sp.odd = false ∧ t = (s.write64 s.sp (Long.ofHalves hi lo)).setAr 7 (s.sp + 2) := by
  unfold State.pushFrame at h
  split at h
  · cases h
  · next hs => exact ⟨by simpa using hs, by injection h with h; exact h.symm⟩

/-- A popped frame (R510). -/
theorem State.popFrame_ok {s t : State} {v : Long} (h : s.popFrame = .ok (v, t)) :
    s.sp.odd = false ∧ v = s.read64 65 (s.sp - 2) ∧ t = s.setAr 7 (s.sp - 2) := by
  unfold State.popFrame at h
  split at h
  · cases h
  · next hs =>
    injection h with h
    injection h with h1 h2
    exact ⟨by simpa using hs, h1.symm, h2.symm⟩

/-- Interrupt entry (R830). -/
theorem State.takeInterrupt_ok {s t : State} {k : Fin 9} (h : s.takeInterrupt k = .ok t) :
    s.sp.odd = false ∧ t = { (s.write64 s.sp (Long.ofHalves s.pswr s.ipc)).setAr 7 (s.sp + 2) with
      ireq := s.ireq &&& ~~~(BitVec.twoPow 9 k)
      pswr := s.pswr ||| s.params.entryMask
      ipc := Config.intVector k } := by
  unfold State.takeInterrupt at h
  split at h
  · cases h
  · next u hu =>
    obtain ⟨h1, rfl⟩ := State.pushFrame_ok hu
    injection h with h
    exact ⟨h1, by rw [← h]; simp⟩

/-- What a control transfer's action can do (R472). -/
theorem State.action_ok {s t : State} {kind : XferKind} {target ret : Word}
    (h : s.action kind target ret = .ok t) :
    (kind = .jump ∧ t = { s with ipc := target }) ∨
    (kind = .call ∧ s.sp.odd = false ∧
      t = { (s.write64 s.sp (Long.ofHalves s.pswr ret)).setAr 7 (s.sp + 2) with ipc := target }) ∨
    (kind = .ret ∧ s.sp.odd = false ∧ t = { s.setAr 7 (s.sp - 2) with ipc := (s.read64 65 (s.sp - 2)).lo }) ∨
    (kind = .iret ∧ s.sp.odd = false ∧ t = { s.setAr 7 (s.sp - 2) with
      ipc := (s.read64 65 (s.sp - 2)).lo, pswr := pswrWritten s.pswr (s.read64 65 (s.sp - 2)).hi }) := by
  cases kind with
  | jump => exact .inl ⟨rfl, by injection h with h; exact h.symm⟩
  | call =>
    unfold State.action State.callTo at h
    dsimp only at h
    split at h
    · cases h
    · next u hu =>
      obtain ⟨h1, rfl⟩ := State.pushFrame_ok hu
      injection h with h
      exact .inr (.inl ⟨rfl, h1, h.symm⟩)
  | ret =>
    unfold State.action State.returnFromCall at h
    dsimp only at h
    split at h
    · cases h
    · next v u hu =>
      obtain ⟨h1, rfl, rfl⟩ := State.popFrame_ok hu
      injection h with h
      exact .inr (.inr (.inl ⟨rfl, h1, h.symm⟩))
  | iret =>
    unfold State.action State.returnFromInterrupt at h
    dsimp only at h
    split at h
    · cases h
    · next v u hu =>
      obtain ⟨h1, rfl, rfl⟩ := State.popFrame_ok hu
      injection h with h
      exact .inr (.inr (.inr ⟨rfl, h1, by rw [← h]; simp⟩))

/-! ### The end of an instruction -/

/-- What the pending transfer does after an instruction (R475). -/
theorem State.settle_ok {s t : State} {q : Option Pending} (h : s.settle q = .ok t) :
    (q = none ∧ t = s) ∨
    (∃ d, q = some d ∧ 1 < d.n ∧ t = { s with pending := some { d with n := d.n - 1 } }) ∨
    (∃ d, q = some d ∧ d.n ≤ 1 ∧ d.taken = true ∧
      { s with pending := none }.action d.kind d.target s.ipc = .ok t) ∨
    (∃ d, q = some d ∧ d.n ≤ 1 ∧ d.taken = false ∧ t = { s with pending := none }) := by
  cases q with
  | none => exact .inl ⟨rfl, by injection h with h; exact h.symm⟩
  | some d =>
    simp only [State.settle] at h
    split at h
    · next h1 => exact .inr (.inl ⟨d, rfl, h1, by injection h with h; exact h.symm⟩)
    · next h1 =>
      split at h
      · next h2 => exact .inr (.inr (.inl ⟨d, rfl, by omega, h2, h⟩))
      · next h2 => exact .inr (.inr (.inr ⟨d, rfl, by omega, by simpa using h2, by injection h with h; exact h.symm⟩))

/-- The end of an instruction: the clear bits, the pending transfer, the clear bits (R631, R475, R58). -/
theorem State.finish_next {s t : State} {q : Option Pending} (h : s.finish q = .next t) :
    ∃ u, s.clearFifos.settle q = .ok u ∧ t = u.clearFifos.tickFree := by
  unfold State.finish at h
  split at h
  · cases h
  · next u hu => exact ⟨u, hu, by injection h with h; exact h.symm⟩

/-- Without a pending transfer an instruction's end always answers. -/
theorem State.finish_none (s : State) : s.finish none = .next s.clearFifos.tickFree := by
  simp [State.finish, State.settle]

/-! ### Scalar instructions -/

/-- A load (R340 to R350). -/
theorem State.doLoad_ok {s t u : State} {dst : Reg} {m : Mode} {k : Word} (h : s.doLoad t dst m k = .ok u) :
    ∃ v, s.load dst.wide (m.ea k dst.step s) = .ok v ∧
      u = (t.applyUpd (m.upd k dst.step s)).writeReg dst v := by
  unfold State.doLoad at h
  split at h
  · cases h
  · next v hv => exact ⟨v, hv, by injection h with h; exact h.symm⟩

/-- A store (R355 to R364). -/
theorem State.doStore_ok {s t u : State} {src : Reg} {m : Mode} {k : Word} (h : s.doStore t m src k = .ok u) :
    ∃ v, t.store src.wide (m.ea k src.step s) (s.readReg src) = .ok v ∧
      u = v.applyUpd (m.upd k src.step s) := by
  unfold State.doStore at h
  split at h
  · cases h
  · next v hv => exact ⟨v, hv, by injection h with h; exact h.symm⟩

/-- A write of one or two words. -/
theorem State.store_ok {s t : State} {wide : Bool} {a : Word} {v : Long} (h : s.store wide a v = .ok t) :
    (wide = true ∧ a.odd = false ∧ t = s.write64 a v) ∨ (wide = false ∧ t = s.write32 a v.lo) := by
  unfold State.store at h
  split at h
  · next hw =>
    split at h
    · cases h
    · next ho => exact .inl ⟨hw, by simpa using ho, by injection h with h; exact h.symm⟩
  · next hw => exact .inr ⟨by simpa using hw, by injection h with h; exact h.symm⟩

/-- A control transfer (R472, R475, R477). -/
theorem State.doXfer_ok {s t u : State} {c : Cond} {d : Bool} {x : Xfer} {k : Word} {n : Nat}
    (h : s.doXfer t c d x k n = .ok u) :
    (s.pending.isSome = true ∧ c.holds s = false ∧ u = t) ∨
    (s.pending = none ∧ d = true ∧ u = { t with pending := some (s.delayRecord c x k t.ipc n) }) ∨
    (s.pending = none ∧ d = false ∧ c.holds s = true ∧ t.action x.kind (x.target k t.ipc s) t.ipc = .ok u) ∨
    (s.pending = none ∧ d = false ∧ c.holds s = false ∧ u = t) := by
  unfold State.doXfer at h
  split at h
  · next hp =>
    split at h
    · cases h
    · next hc => exact .inl ⟨hp, by simpa using hc, by injection h with h; exact h.symm⟩
  · next hp =>
    have hp : s.pending = none := by simpa using hp
    split at h
    · next hd => exact .inr (.inl ⟨hp, hd, by injection h with h; exact h.symm⟩)
    · next hd =>
      have hd : d = false := by simpa using hd
      split at h
      · next hc => exact .inr (.inr (.inl ⟨hp, hd, hc, h⟩))
      · next hc => exact .inr (.inr (.inr ⟨hp, hd, by simpa using hc, by injection h with h; exact h.symm⟩))

/-- A scalar instruction that answers a next state (R330). -/
theorem runScalar_next {p : Bool} {l : SLeft} {k : Word} {r : SRight} {s t : State}
    (h : runScalar p l k r s = .next t) :
    scalarDefect l r = none ∧ (l.long && s.ipc.odd) = false ∧
    ∃ u, s.leftPart ((s.rightPart r).advance l.len) l k (s.slots ⟨.scalar p l r, k⟩) = .ok u ∧ u.finish s.pending = .next t := by
  unfold runScalar at h
  split at h
  · cases h
  · next hd =>
    split at h
    · cases h
    · next ho =>
      split at h
      · cases h
      · next u hu => exact ⟨hd, by simpa using ho, u, hu, h⟩

/-- A scalar instruction of the tables whose left part answers. -/
theorem runScalar_of_left {p : Bool} {l : SLeft} {k : Word} {r : SRight} {s u : State}
    (hd : scalarDefect l r = none) (ho : (l.long && s.ipc.odd) = false)
    (hu : s.leftPart ((s.rightPart r).advance l.len) l k (s.slots ⟨.scalar p l r, k⟩) = .ok u) :
    runScalar p l k r s = u.finish s.pending := by
  unfold runScalar
  rw [hd]
  simp only [ho, hu]
  rfl

/-! ### Vector instructions -/

/-- A vector instruction that answers a next state (R631). -/
theorem runVector_next {p : Bool} {n : Rep} {l : VLeft} {r : VRight} {s t : State}
    (h : runVector p n l r s = .next t) :
    vectorDefect n l r = none ∧
    ((s.wfifoBlocks (l.mem.wfifoLoad (n.val + 1)) l.ftw = true ∧ t = s.block) ∨
     (s.wfifoBlocks (l.mem.wfifoLoad (n.val + 1)) l.ftw = false ∧
      ((s.vectorError (n.val + 1) l.mem r = true ∧ ((s.raise 6).advance 1).finish s.pending = .next t) ∨
       (s.vectorError (n.val + 1) l.mem r = false ∧ s.vectorOdd l.mem = false ∧ s.rowsAgree r = true ∧
        ((s.vectorEffect (n.val + 1) l r).advance 1).finish s.pending = .next t)))) := by
  unfold runVector at h
  dsimp only at h
  split at h
  · cases h
  · next hd =>
    refine ⟨hd, ?_⟩
    split at h
    · next hw => exact .inl ⟨hw, by injection h with h; exact h.symm⟩
    · next hw =>
      refine .inr ⟨by simpa using hw, ?_⟩
      split at h
      · next he => exact .inl ⟨he, h⟩
      · next he =>
        split at h
        · cases h
        · next ho =>
          split at h
          · cases h
          · next hr => exact .inr ⟨by simpa using he, by simpa using ho, by simpa using hr, h⟩

/-- A bare vector instruction that answers a next state. -/
theorem runBare_next {p : Bool} {b : VBare} {s t : State} (h : runBare p b s = .next t) :
    ((b = .ftw ∨ b = .ftwWtw) ∧ s.wfifoBlocks 0 true = true ∧ t = s.block) ∨
    ∃ u, (u = s ∨ u = s.doWtw ∨ (s.wfifoBlocks 0 true = false ∧ (u = s.doFtw ∨ u = s.doFtw.doWtw))) ∧
      (u.advance 1).finish s.pending = .next t := by
  cases b with
  | vnul => exact .inr ⟨s, .inl rfl, h⟩
  | wtw => exact .inr ⟨s.doWtw, .inr (.inl rfl), h⟩
  | ftw =>
    simp only [runBare] at h
    split at h
    · next hw => exact .inl ⟨.inl rfl, hw, by injection h with h; exact h.symm⟩
    · next hw => exact .inr ⟨s.doFtw, .inr (.inr ⟨by simpa using hw, .inl rfl⟩), h⟩
  | ftwWtw =>
    simp only [runBare] at h
    split at h
    · next hw => exact .inl ⟨.inr rfl, hw, by injection h with h; exact h.symm⟩
    · next hw => exact .inr ⟨s.doFtw.doWtw, .inr (.inr ⟨by simpa using hw, .inr rfl⟩), h⟩

/-! ### Fetching -/

/-- A step of the processor (R830). -/
theorem coreStep_next {s t : State} (h : coreStep s = .next t) :
    (s.stuck = true ∧ t = s) ∨
    (s.stuck = false ∧ ∃ k, s.interruptNow = some k ∧ s.interruptStep k = .next t) ∨
    (s.stuck = false ∧ s.interruptNow = none ∧ ∃ i, s.fetch = .ok i ∧ exec i s = .next t) := by
  unfold coreStep at h
  split at h
  · next hs => exact .inl ⟨hs, by injection h with h; exact h.symm⟩
  · next hs =>
    have hs : s.stuck = false := by simpa using hs
    split at h
    · next k hk => exact .inr (.inl ⟨hs, k, hk, h⟩)
    · next hk =>
      split at h
      · cases h
      · next i hi => exact .inr (.inr ⟨hs, hk, i, hi, h⟩)

end Sys2Proof.Machine
end

