-- ==== Sys2Proof/Laws/Parts.lean ====
section
/-! SUPPORT. What the parts of an instruction do: register and memory writes, the flags as integer facts, the left
and the right part, a timer's tick, the pieces of a vector step. -/

namespace Sys2Proof.Machine

open Sys2Proof

/-! ### Words -/

/-- The low half of two halves. -/
theorem Long.lo_ofHalves (a b : Word) : Long.lo (Long.ofHalves a b) = b := by
  apply BitVec.eq_of_getLsbD_eq; intro i hi
  rw [Long.lo, Long.ofHalves, BitVec.getLsbD_extractLsb', BitVec.getLsbD_append]
  simp [hi]

/-- The high half of two halves. -/
theorem Long.hi_ofHalves (a b : Word) : Long.hi (Long.ofHalves a b) = a := by
  apply BitVec.eq_of_getLsbD_eq; intro i hi
  rw [Long.hi, Long.ofHalves, BitVec.getLsbD_extractLsb', BitVec.getLsbD_append]
  simp [hi]

/-- A word is odd when its value is. -/
theorem Word.odd_iff (x : Word) : x.odd = decide (x.toNat % 2 = 1) := by
  simp [Word.odd, BitVec.getLsbD, Nat.testBit_zero]

/-- A step of 2 down keeps the parity. -/
theorem Word.odd_sub_two (x : Word) : (x - 2).odd = x.odd := by
  rw [Word.odd_iff, Word.odd_iff, BitVec.toNat_sub]
  congr 1
  simp
  try omega

/-- A step of 2 up keeps the parity. -/
theorem Word.odd_add_two (x : Word) : (x + 2).odd = x.odd := by
  rw [Word.odd_iff, Word.odd_iff, BitVec.toNat_add]
  congr 1
  simp
  try omega

/-! ### Memory writes (R205, R230) -/

/-- Words after a write of one word. -/
theorem State.word_write32 (s : State) (a v b : Word) :
    Memory.word (s.write32 a v).mem b = if b = a ∧ s.backed a = true then v else Memory.word s.mem b := by
  unfold State.write32
  by_cases h : s.backed a = true
  · rw [if_pos h]; simp only [Memory.word_setWord, h, and_true]
  · rw [if_neg h]; simp [h]

/-- A write changes no address's backing. -/
theorem State.backed_write32 (s : State) (a v b : Word) : (s.write32 a v).backed b = s.backed b := by
  simp [State.backed]

/-- The next word is another word. -/
theorem Word.add_one_ne (a : Word) : a + 1 ≠ a := by bv_omega

/-- The low word of a long word written. -/
theorem State.word_write64_lo (s : State) (a : Word) (v : Long) (h : s.backed a = true) :
    Memory.word (s.write64 a v).mem a = v.lo := by
  unfold State.write64
  rw [State.word_write32, if_neg (by intro h; exact Word.add_one_ne a h.1.symm), State.word_write32, if_pos ⟨rfl, h⟩]

/-- The high word of a long word written. -/
theorem State.word_write64_hi (s : State) (a : Word) (v : Long) (h : s.backed (a + 1) = true) :
    Memory.word (s.write64 a v).mem (a + 1) = v.hi := by
  unfold State.write64
  rw [State.word_write32, if_pos ⟨rfl, by rw [State.backed_write32, h]⟩]

/-- A word outside a long word written. -/
theorem State.word_write64_other (s : State) (a b : Word) (v : Long) (h1 : b ≠ a) (h2 : b ≠ a + 1) :
    Memory.word (s.write64 a v).mem b = Memory.word s.mem b := by
  unfold State.write64
  rw [State.word_write32, if_neg (fun h => h2 h.1), State.word_write32, if_neg (fun h => h1 h.1)]

/-- A byte outside a word written. -/
theorem State.byteAt_write32 (s : State) (a v : Word) (x : Nat) (h : ∀ j < 4, x ≠ byteAddr a j) :
    Memory.byteAt (s.write32 a v).mem x = Memory.byteAt s.mem x := by
  unfold State.write32
  split
  · exact Memory.byteAt_setWord_of_ne _ _ _ h
  · rfl

/-- A byte outside a long word written. -/
theorem State.byteAt_write64 (s : State) (a : Word) (v : Long) (x : Nat)
    (h : ∀ d < 2, ∀ j < 4, x ≠ byteAddr (a + BitVec.ofNat 32 d) j) :
    Memory.byteAt (s.write64 a v).mem x = Memory.byteAt s.mem x := by
  unfold State.write64
  rw [State.byteAt_write32, State.byteAt_write32]
  · intro j hj; have := h 0 (by omega) j hj; simpa using this
  · intro j hj; exact h 1 (by omega) j hj

/-! ### Register writes (R403, R126, R134, R440) -/

/-- What a copy to pswr leaves in each bit (R440). -/
theorem pswrWritten_bit (old v : Word) (n : Nat) (h : n < 32) :
    (pswrWritten old v).getLsbD n = if 20 ≤ n ∧ n ≤ 25 then old.getLsbD n else v.getLsbD n := by
  have hm : cpMask.getLsbD n = decide (20 ≤ n ∧ n ≤ 25) := by
    revert n; decide
  simp only [pswrWritten, BitVec.getLsbD_or, BitVec.getLsbD_and, BitVec.getLsbD_not, hm, h]
  by_cases h1 : 20 ≤ n ∧ n ≤ 25
  · simp [h1]
  · simp [h1]

/-- sb1 after a write of the whole image (R134). -/
theorem getLsbD_oddBits (v : Long) (j : Nat) (h : j < 32) : (oddBits v).getLsbD j = v.getLsbD (2 * j + 1) := by
  simp [oddBits, h]

/-- sb1 after a write of sbl (R134). -/
theorem getLsbD_sbLowWritten (a w : Word) (j : Nat) (h : j < 32) :
    (sbLowWritten a w).getLsbD j = if j < 16 then w.getLsbD (2 * j + 1) else a.getLsbD j := by
  simp [sbLowWritten, h]

/-- sb1 after a write of sbh (R134). -/
theorem getLsbD_sbHighWritten (a w : Word) (j : Nat) (h : j < 32) :
    (sbHighWritten a w).getLsbD j = if j < 16 then a.getLsbD j else w.getLsbD (2 * (j - 16) + 1) := by
  simp [sbHighWritten, h]

/-- A register write leaves the general-purpose registers it does not name. -/
theorem State.writeReg_gr (S : State) (dst : Reg) (v : Long) (j : Ix) (h : dst.grPart ≠ some j) :
    (S.writeReg dst v).gr j = S.gr j := by
  cases dst with
  | ar n => simp [State.writeReg]
  | gr n => simp [State.writeReg, State.gr_setGr, Reg.grPart] at h ⊢; simp [h]
  | pair n => simp [State.writeReg, State.gr_setGr, Reg.grPart] at h ⊢; simp [h]
  | special x =>
    have : ∀ (S : State) q w, (S.writeSpec q w).gr j = S.gr j := by
      intro S q w; cases q <;> rfl
    rcases x with q | q <;> simp [State.writeReg, this]
  | vctl c => rcases c with q | q <;> cases q <;> rfl

/-- A register write leaves the address registers it does not name. -/
theorem State.writeReg_ar (S : State) (dst : Reg) (v : Long) (j : Ix) (h : arPart dst ≠ some j) :
    (S.writeReg dst v).ar j = S.ar j := by
  cases dst with
  | ar n => simp [State.writeReg, State.ar_setAr, arPart] at h ⊢; simp [h]
  | gr n => simp [State.writeReg]
  | pair n => simp [State.writeReg, State.ar_setAr, arPart] at h ⊢; simp [h]
  | special x =>
    have : ∀ (S : State) q w, (S.writeSpec q w).ar j = S.ar j := by
      intro S q w; cases q <;> rfl
    rcases x with q | q <;> simp [State.writeReg, this]
  | vctl c => rcases c with q | q <;> cases q <;> rfl

/-- A register write leaves pswr, if that is not its destination. -/
theorem State.writeReg_pswr (S : State) (dst : Reg) (v : Long) (h : dst ≠ .special (.one .pswr)) (hd : dst.dstDefect = none) :
    (S.writeReg dst v).pswr = S.pswr := by
  cases dst with
  | ar n => rfl
  | gr n => rfl
  | pair n => rfl
  | special x =>
    rcases x with q | q
    · cases q <;> first | rfl | simp at h
    · cases q <;> first | rfl | simp [Reg.dstDefect] at hd
  | vctl c => rcases c with q | q <;> cases q <;> rfl

/-- No register write changes pswr bits 25:20 (R56). -/
theorem State.writeReg_psw_cp (S : State) (d : Reg) (v : Long) (n : Nat) (h1 : 20 ≤ n) (h2 : n ≤ 25) : (S.writeReg d v).psw n = S.psw n := by
  have hs : ∀ (S : State) q w, (S.writeSpec q w).psw n = S.psw n := by
    intro S q w
    cases q <;> try rfl
    exact (pswrWritten_bit S.pswr w n (by omega)).trans (by rw [if_pos ⟨h1, h2⟩]; rfl)
  cases d with
  | ar => rfl
  | gr => rfl
  | pair => rfl
  | special x => rcases x with q | q <;> simp [State.writeReg, hs]
  | vctl c => rcases c with q | q <;> cases q <;> rfl

/-! ### The right part (R540 to R549) -/

/-- A right part requests SPR or nothing (R544). -/
theorem State.rightPart_ireq (s : State) (r : SRight) :
    (s.rightPart r).ireq = s.ireq ∨ (s.rightPart r).ireq = s.ireq ||| BitVec.twoPow 9 7 := by
  have hm : ∀ x y d a, (s.mulWrite x y d a).ireq = s.ireq := by
    intro x y d a
    unfold State.mulWrite State.mulRegs
    repeat' split
    all_goals rfl
  have ha : ∀ f o fn, (s.aluWrite f o fn).ireq = s.ireq ∨ (s.aluWrite f o fn).ireq = s.ireq ||| BitVec.twoPow 9 7 := by
    intro f o fn
    unfold State.aluWrite State.requestSpr
    repeat' split
    all_goals first | exact .inl rfl | exact .inr rfl
  unfold State.rightPart
  repeat' split
  all_goals first | exact .inl rfl | exact .inl (hm ..) | exact ha _ _ _

/-- A right part that sets no flags leaves pswr (R545 to R549). -/
theorem State.rightPart_pswr (s : State) (r : SRight) (h : setsFlags r = false) : (s.rightPart r).pswr = s.pswr := by
  have hm : ∀ x d a, (s.mulWrite x true d a).pswr = s.pswr := by
    intro x d a
    unfold State.mulWrite State.mulRegs
    repeat' split
    all_goals first | rfl | simp_all
  cases r with
  | nul => rfl
  | shift k d a n => simp [setsFlags] at h; simp [State.rightPart, h]
  | alu f fn a b =>
    cases f with
    | std d => simp [setsFlags] at h
    | flagsOnly => simp [setsFlags] at h
    | noflags d =>
      cases fn <;> simp only [State.rightPart] <;> first | exact hm _ _ _ | rfl

/-- A carry as a number. -/
theorem Bool.toNat_ofBool (c : Bool) : (BitVec.ofBool c).toNat = c.toNat := by cases c <;> rfl

/-- The signed value of a word. -/
theorem Word.toInt_eq (a : Word) : a.toInt = if a.toNat < 2147483648 then (a.toNat : Int) else a.toNat - 4294967296 := by
  rw [BitVec.toInt_eq_toNat_cond]; split <;> split <;> omega

/-- The sign of a word. -/
theorem Word.msb_eq (a : Word) : a.msb = decide (2147483648 ≤ a.toNat) := by
  rw [BitVec.msb_eq_decide]

/-- The exact sum (R542). -/
theorem exactSum_toNat (a x : Word) (c : Bool) : (exactSum a x c).toNat = a.toNat + x.toNat + c.toNat := by
  unfold exactSum
  have := a.isLt; have := x.isLt; have : c.toNat ≤ 1 := by cases c <;> simp
  simp only [BitVec.toNat_add, BitVec.toNat_setWidth, Bool.toNat_ofBool]
  omega

/-- The carry of the exact sum (R542). -/
theorem exactSum_carry (a x : Word) (c : Bool) : (exactSum a x c).getLsbD 32 = decide (2 ^ 32 ≤ a.toNat + x.toNat + c.toNat) := by
  have hs := exactSum_toNat a x c
  have := a.isLt; have := x.isLt; have : c.toNat ≤ 1 := by cases c <;> simp
  rw [BitVec.getLsbD, Nat.testBit_eq_decide_div_mod_eq, hs]
  congr 1
  apply propext
  omega

/-- The result of the exact sum (R542). -/
theorem exactSum_word (a x : Word) (c : Bool) : (exactSum a x c).setWidth 32 = a + x + BitVec.ofNat 32 c.toNat := by
  apply BitVec.eq_of_toNat_eq
  have : c.toNat ≤ 1 := by cases c <;> simp
  rw [BitVec.toNat_setWidth, exactSum_toNat, BitVec.toNat_add, BitVec.toNat_add, BitVec.toNat_ofNat]
  omega

/-- The adding class in integers (R542). -/
theorem addClass_eq (a x : Word) (c : Bool) : addClass a x c = aluOut (a + x + BitVec.ofNat 32 c.toNat)
    (decide (a.toInt + x.toInt + c.toNat < -2 ^ 31 ∨ 2 ^ 31 ≤ a.toInt + x.toInt + c.toNat))
    (decide (2 ^ 32 ≤ a.toNat + x.toNat + c.toNat)) := by
  unfold addClass
  simp only [exactSum_carry, exactSum_word]
  congr 1
  have hr : (a + x + BitVec.ofNat 32 c.toNat).toNat = (a.toNat + x.toNat + c.toNat) % 4294967296 := by
    have : c.toNat ≤ 1 := by cases c <;> simp
    rw [BitVec.toNat_add, BitVec.toNat_add, BitVec.toNat_ofNat]; omega
  have := a.isLt; have := x.isLt; have : c.toNat ≤ 1 := by cases c <;> simp
  simp only [Word.msb_eq, Word.toInt_eq, hr]
  rw [Bool.eq_iff_iff]
  simp only [Bool.and_eq_true, beq_iff_eq, bne_iff_ne, ne_eq, decide_eq_decide, decide_eq_true_eq]
  split <;> split <;> omega

/-- The subtracting class in integers (R542, R543). -/
theorem subClass_eq (sense) (a x : Word) (c : Bool) : subClass sense a x c = aluOut (a - x - 1 + BitVec.ofNat 32 c.toNat)
    (decide (a.toInt - x.toInt - 1 + c.toNat < -2 ^ 31 ∨ 2 ^ 31 ≤ a.toInt - x.toInt - 1 + c.toNat))
    (match sense with
      | .borrow => decide ((a.toNat : Int) - x.toNat - 1 + c.toNat < 0)
      | .notBorrow => decide (0 ≤ (a.toNat : Int) - x.toNat - 1 + c.toNat)) := by
  unfold subClass
  have := a.isLt; have := x.isLt; have : c.toNat ≤ 1 := by cases c <;> simp
  have hn : (~~~x).toNat = 4294967295 - x.toNat := by rw [BitVec.toNat_not]
  have hw : a + ~~~x + BitVec.ofNat 32 c.toNat = a - x - 1 + BitVec.ofNat 32 c.toNat := by
    congr 1
    rw [BitVec.not_eq_neg_add]; bv_omega
  simp only [exactSum_carry, exactSum_word]
  have hr : (a + ~~~x + BitVec.ofNat 32 c.toNat).toNat = (a.toNat + (4294967295 - x.toNat) + c.toNat) % 4294967296 := by
    rw [BitVec.toNat_add, BitVec.toNat_add, BitVec.toNat_ofNat, hn]; omega
  have hv : (a.msb != x.msb && (a + ~~~x + BitVec.ofNat 32 c.toNat).msb != a.msb) = (decide (a.toInt - x.toInt - 1 + c.toNat < -2 ^ 31 ∨ 2 ^ 31 ≤ a.toInt - x.toInt - 1 + c.toNat)) := by
    simp only [Word.msb_eq, Word.toInt_eq, hr]
    rw [Bool.eq_iff_iff]
    simp only [Bool.and_eq_true, bne_iff_ne, ne_eq, decide_eq_decide, decide_eq_true_eq]
    split <;> split <;> omega
  rw [hv, hw]
  congr 1
  cases sense
  · simp only [hn]
    rw [← decide_not]; congr 1; apply propext; omega
  · simp only [hn]; congr 1; apply propext; omega

/-! ### Control transfers (R472 to R512) -/

/-- A call with even sp (R490). -/
theorem State.callTo_of_even (S : State) (T ret : Word) (h : S.sp.odd = false) : S.callTo T ret =
    .ok { (S.write64 S.sp (Long.ofHalves S.pswr ret)).setAr 7 (S.sp + 2) with ipc := T } := by
  unfold State.callTo State.pushFrame
  rw [h]; rfl

/-- A return with even sp (R510). -/
theorem State.returnFromCall_of_even (S : State) (h : S.sp.odd = false) : S.returnFromCall =
    .ok { S.setAr 7 (S.sp - 2) with ipc := (S.read64 65 (S.sp - 2)).lo } := by
  unfold State.returnFromCall State.popFrame
  rw [h]; rfl

/-- An ireturn with even sp (R512). -/
theorem State.returnFromInterrupt_of_even (S : State) (h : S.sp.odd = false) : S.returnFromInterrupt =
    .ok { S.setAr 7 (S.sp - 2) with ipc := (S.read64 65 (S.sp - 2)).lo, pswr := pswrWritten S.pswr (S.read64 65 (S.sp - 2)).hi } := by
  unfold State.returnFromInterrupt State.popFrame
  rw [h]; rfl

/-- A branch has one to three delayed instructions (R475). -/
theorem slotsAt_fits (l : List (Config.DelayCase × Fin 3)) (a : Config.DelayCase) : 1 ≤ slotsAt l a ∧ slotsAt l a ≤ 3 := by
  induction l with
  | nil => simp [slotsAt]
  | cons c t ih => simp only [slotsAt]; split; have := c.2.isLt; omega; exact ih

/-! ### The left part -/

/-- A left part leaves the general-purpose registers it does not name. -/
theorem State.leftPart_gr {s T u : State} {l k n} (h : s.leftPart T l k n = .ok u) (j : Ix) (hj : l.grWrite ≠ some j) : u.gr j = T.gr j := by
  have hload : ∀ {d m}, s.doLoad T d m k = .ok u → d.grPart ≠ some j → u.gr j = T.gr j := by
    intro d m h hd
    obtain ⟨v, _, rfl⟩ := State.doLoad_ok h
    rw [State.writeReg_gr _ _ _ _ hd]; simp
  have hstore : ∀ {d m}, s.doStore T m d k = .ok u → u.gr j = T.gr j := by
    intro d m h
    obtain ⟨v, hv, rfl⟩ := State.doStore_ok h
    rcases State.store_ok hv with ⟨_, _, rfl⟩ | ⟨_, rfl⟩ <;> simp
  unfold State.leftPart at h
  split at h
  case h_1 | h_2 => injection h with h; subst h; rfl
  case h_3 | h_6 => exact hload h hj
  case h_4 | h_5 => exact hstore h
  case h_8 | h_9 => injection h with h; subst h; exact State.writeReg_gr _ _ _ _ hj
  case h_13 c d x =>
    rcases State.doXfer_ok h with ⟨_, _, rfl⟩ | ⟨hp, _, rfl⟩ | ⟨_, _, _, h⟩ | ⟨_, _, _, rfl⟩
    · rfl
    · rfl
    · rcases State.action_ok h with ⟨_, rfl⟩ | ⟨_, _, rfl⟩ | ⟨_, _, rfl⟩ | ⟨hk, _, rfl⟩
      · rfl
      · have : ((T.write64 T.sp (Long.ofHalves T.pswr T.ipc)).setAr 7 (T.sp + 2)).gr j = T.gr j := by simp
        exact this
      · rfl
      · rfl
    · rfl
  all_goals (injection h with h; subst h; rfl)

/-- Only `pswr set` and `pswr clear` change pswr bits 25:20 (R56). -/
theorem State.leftPart_psw_cp {s T u : State} {l k m} (h : s.leftPart T l k m = .ok u) (hs : l ≠ .pswrSet) (hc : l ≠ .pswrClear) :
    (∀ n, 20 ≤ n → n ≤ 25 → u.psw n = T.psw n) := by
  intro n h1 h2
  have hload : ∀ {d m}, s.doLoad T d m k = .ok u → u.psw n = T.psw n := by
    intro d m h
    obtain ⟨v, _, rfl⟩ := State.doLoad_ok h
    rw [State.writeReg_psw_cp _ _ _ _ h1 h2]; simp
  have hstore : ∀ {d m}, s.doStore T m d k = .ok u → u.psw n = T.psw n := by
    intro d m h
    obtain ⟨v, hv, rfl⟩ := State.doStore_ok h
    rcases State.store_ok hv with ⟨_, _, rfl⟩ | ⟨_, rfl⟩ <;> simp
  have hact : ∀ {S kind T r}, State.action S kind T r = .ok u → u.psw n = S.psw n := by
    intro S kind T r h
    rcases State.action_ok h with ⟨_, rfl⟩ | ⟨_, _, rfl⟩ | ⟨_, _, rfl⟩ | ⟨hk, _, rfl⟩
    · rfl
    · simp [State.psw]
    · rfl
    · exact (pswrWritten_bit S.pswr _ n (by omega)).trans (by rw [if_pos ⟨h1, h2⟩]; rfl)
  unfold State.leftPart at h
  split at h
  case h_1 | h_2 => injection h with h; subst h; rfl
  case h_3 | h_6 => exact hload h
  case h_4 | h_5 => exact hstore h
  case h_8 | h_9 => injection h with h; subst h; exact State.writeReg_psw_cp _ _ _ _ h1 h2
  case h_11 => exact absurd rfl hs
  case h_12 => exact absurd rfl hc
  case h_13 =>
    rcases State.doXfer_ok h with ⟨_, _, rfl⟩ | ⟨hp, _, rfl⟩ | ⟨_, _, _, h⟩ | ⟨_, _, _, rfl⟩
    · rfl
    · rfl
    · exact hact h
    · rfl
  all_goals (injection h with h; subst h; rfl)

/-- A left part that is no delayed transfer makes no record (R475). -/
theorem State.leftPart_pending {s T u : State} {l k n} (h : s.leftPart T l k n = .ok u)
    (hx : ∀ c x, l ≠ .xfer c true x) : u.pending = T.pending := by
  have hload : ∀ {d m}, s.doLoad T d m k = .ok u → u.pending = T.pending := by
    intro d m h
    obtain ⟨v, _, rfl⟩ := State.doLoad_ok h
    simp
  have hstore : ∀ {d m}, s.doStore T m d k = .ok u → u.pending = T.pending := by
    intro d m h
    obtain ⟨v, hv, rfl⟩ := State.doStore_ok h
    rcases State.store_ok hv with ⟨_, _, rfl⟩ | ⟨_, rfl⟩ <;> simp
  unfold State.leftPart at h
  split at h
  case h_1 | h_2 => injection h with h; subst h; rfl
  case h_3 | h_6 => exact hload h
  case h_4 | h_5 => exact hstore h
  case h_8 | h_9 => injection h with h; subst h; simp
  case h_13 c d x =>
    rcases State.doXfer_ok h with ⟨_, _, rfl⟩ | ⟨_, rfl, _⟩ | ⟨_, _, _, h⟩ | ⟨_, _, _, rfl⟩
    · rfl
    · exact absurd rfl (hx c x)
    · rcases State.action_ok h with ⟨_, rfl⟩ | ⟨_, _, rfl⟩ | ⟨_, _, rfl⟩ | ⟨_, _, rfl⟩ <;> simp
    · rfl
  all_goals (injection h with h; subst h; rfl)

/-- A left part that transfers no control leaves ipc. -/
theorem State.leftPart_ipc {s T u : State} {l k n} (h : s.leftPart T l k n = .ok u) (hx : ∀ c x, l = .xfer c false x → c.holds s = false) : u.ipc = T.ipc := by
  have hload : ∀ {d m}, s.doLoad T d m k = .ok u → u.ipc = T.ipc := by
    intro d m h
    obtain ⟨v, _, rfl⟩ := State.doLoad_ok h
    simp
  have hstore : ∀ {d m}, s.doStore T m d k = .ok u → u.ipc = T.ipc := by
    intro d m h
    obtain ⟨v, hv, rfl⟩ := State.doStore_ok h
    rcases State.store_ok hv with ⟨_, _, rfl⟩ | ⟨_, rfl⟩ <;> simp
  unfold State.leftPart at h
  split at h
  case h_1 | h_2 => injection h with h; subst h; rfl
  case h_3 | h_6 => exact hload h
  case h_4 | h_5 => exact hstore h
  case h_8 | h_9 => injection h with h; subst h; simp
  case h_13 c d x =>
    rcases State.doXfer_ok h with ⟨_, _, rfl⟩ | ⟨hp, _, rfl⟩ | ⟨_, rfl, hh, h⟩ | ⟨_, _, _, rfl⟩
    · rfl
    · rfl
    · rw [hx c x rfl] at hh; cases hh
    · rfl
  all_goals (injection h with h; subst h; rfl)

/-! ### Timers (R116) -/

/-- One tick of a timer. -/
theorem State.tickTimer_eq (s : State) (p : Unit2) (a b : Bool) (h : s.timerMode p = (a, b)) :
    (s.tickTimer p) = (if (a = false ∧ b = false) ∨ (s.timer p).stopped = true then s
      else if (s.timer p).count = 0xFFFFFFFF then
        (if a then (s.setTimer p ⟨(s.timer p).reload, (s.timer p).reload, false⟩).raise (timerReq p)
          else (s.setTimer p ⟨0, (s.timer p).reload, true⟩).raise (timerReq p))
      else s.setTimer p ⟨(s.timer p).count + 1, (s.timer p).reload, false⟩) := by
  unfold State.tickTimer
  rw [h]
  have e : ((s.timer p).count + 1 = 0) ↔ (s.timer p).count = 0xFFFFFFFF := by
    constructor <;> intro h <;> bv_omega
  by_cases h1 : (s.timer p).stopped = true
  · simp [h1]
  · have h1' : (s.timer p).stopped = false := by simpa using h1
    by_cases h2 : (s.timer p).count = 4294967295#32
    · cases a <;> cases b <;> simp [h1', h2]
    · have h3 : ¬ (s.timer p).count + 1#32 = 0#32 := fun h => h2 (e.1 h)
      cases a <;> cases b <;> simp [h1', h2, h3]

/-! ### Vector steps (R631) -/

/-- A step of an even number up keeps the parity. -/
theorem Word.odd_add_even (a : Word) (n : Nat) : (a + BitVec.ofNat 32 (2 * n)).odd = a.odd := by
  rw [Word.odd_iff, Word.odd_iff]; congr 1; apply propext
  rw [BitVec.toNat_add, BitVec.toNat_ofNat]; omega

/-- A step of an even number down keeps the parity. -/
theorem Word.odd_sub_even (a : Word) (n : Nat) : (a - BitVec.ofNat 32 (2 * n)).odd = a.odd := by
  rw [Word.odd_iff, Word.odd_iff]; congr 1; apply propext
  rw [BitVec.toNat_sub, BitVec.toNat_ofNat]; omega

/-- Steps of an even word keep the parity. -/
theorem Word.odd_add_mul (a g : Word) (n : Nat) (h : g.odd = false) : (a + BitVec.ofNat 32 n * g).odd = a.odd := by
  rw [Word.odd_iff] at h ⊢
  rw [Word.odd_iff]; congr 1; apply propext
  simp at h
  rw [BitVec.toNat_add, BitVec.toNat_mul, BitVec.toNat_ofNat]
  obtain ⟨q, hq⟩ : ∃ q, g.toNat = 2 * q := ⟨g.toNat / 2, by omega⟩
  rw [hq]
  have : n % 4294967296 * (2 * q) = 2 * (n % 4294967296 * q) := by rw [Nat.mul_left_comm]
  rw [this]; omega

/-- Every address of a mode with even registers is even (R633). -/
theorem VMode.ea_even (m : VMode) (s : State) (h : m.odd s = false) (k : Nat) : (m.ea k s).odd = false := by
  cases m <;> simp only [VMode.odd, VMode.ea, Bool.or_eq_false_iff] at h ⊢
  · exact h
  · exact h
  · exact h
  · rw [Word.odd_add_even]; exact h
  · rw [Word.odd_sub_even]; exact h
  · rw [Word.odd_add_mul _ _ _ h.2]; exact h.1
  · rw [Word.odd_add_mul _ _ _ h.2]; exact h.1

/-- A vector store writes memory only. -/
theorem State.vectorWrite_form (s : State) (m : VMode) (ws : List Long) : ∀ k t, ∃ μ, s.vectorWrite m k ws t = { t with mem := μ } := by
  induction ws with
  | nil => intro k t; exact ⟨t.mem, rfl⟩
  | cons w ws ih =>
    intro k t
    simp only [State.vectorWrite]
    obtain ⟨μ, h⟩ := ih (k + 1) (t.write64 (m.ea k s) w)
    rw [h]
    refine ⟨μ, ?_⟩
    have : ∀ (t : State) a w, ∃ μ, t.write32 a w = { t with mem := μ } := by
      intro t a w; unfold State.write32; split; exact ⟨_, rfl⟩; exact ⟨t.mem, rfl⟩
    unfold State.write64
    obtain ⟨μ1, h1⟩ := this t (m.ea k s) w.lo
    rw [h1]
    obtain ⟨μ2, h2⟩ := this { t with mem := μ1 } (m.ea k s + 1) w.hi
    rw [h2]

/-- A byte outside the words a vector store writes. -/
theorem State.byteAt_vectorWrite (s : State) (m : VMode) (ws : List Long) (x : Nat) : ∀ k t,
    (∀ i < ws.length, ∀ d < 2, ∀ j < 4, x ≠ byteAddr (m.ea (k + i) s + BitVec.ofNat 32 d) j) →
    Memory.byteAt (s.vectorWrite m k ws t).mem x = Memory.byteAt t.mem x := by
  induction ws with
  | nil => intro k t _; rfl
  | cons w ws ih =>
    intro k t h
    simp only [State.vectorWrite]
    rw [ih, State.byteAt_write64]
    · intro d hd j hj; exact h 0 (by simp) d hd j hj
    · intro i hi d hd j hj
      have := h (i + 1) (by simp; omega) d hd j hj
      rwa [show k + 1 + i = k + (i + 1) by omega]

/-- A word outside the words a vector store writes. -/
theorem State.word_vectorWrite_other (s : State) (m : VMode) (ws : List Long) (b : Word) : ∀ k t,
    (∀ i < ws.length, b ≠ m.ea (k + i) s ∧ b ≠ m.ea (k + i) s + 1) →
    Memory.word (s.vectorWrite m k ws t).mem b = Memory.word t.mem b := by
  induction ws with
  | nil => intro k t _; rfl
  | cons w ws ih =>
    intro k t h
    simp only [State.vectorWrite]
    rw [ih, State.word_write64_other]
    · exact (h 0 (by simp)).1
    · exact (h 0 (by simp)).2
    · intro i hi
      have := h (i + 1) (by simp; omega)
      rwa [show k + 1 + i = k + (i + 1) by omega]

/-- Memory and the address register after a vector left part. -/
theorem State.vectorStore_form (s : State) (m : VMem) (n : Nat) : ∃ μ, s.vectorStore m n = ({ s with mem := μ } : State).applyUpd (m.mode.bind fun v => v.upd n s) ∧
    ((∀ v b, m ≠ .store v b) → μ = s.mem) ∧ (∀ v b, m = .store v b → μ = (s.vectorWrite v 0 s.afifo s).mem) := by
  unfold State.vectorStore
  cases m with
  | none => exact ⟨s.mem, rfl, fun _ => rfl, by simp⟩
  | load b v => exact ⟨s.mem, rfl, fun _ => rfl, by simp⟩
  | store v b =>
    obtain ⟨μ, h⟩ := State.vectorWrite_form s v s.afifo 0 s
    refine ⟨μ, ?_, fun h => absurd rfl (h v b), ?_⟩
    · simp only [h]; rfl
    · rintro v' b' ⟨⟩; rw [h]

/-- An address update writes the address registers only. -/
theorem State.applyUpd_form (s : State) (u : Option (Ix × Word)) : ∃ α, s.applyUpd u = { s with ars := α } := by
  cases u with
  | none => exact ⟨s.ars, rfl⟩
  | some x => exact ⟨_, rfl⟩

end Sys2Proof.Machine
end

