-- ==== Sys2Proof/Laws/PerInstr.lean ====
section
/-! SUPPORT. Statements made per instruction: for every constructor, writing the instruction with the constructor
chosen for it does not change the instruction of R264 it stands for. -/

namespace Sys2Proof.Laws

namespace CanonCode

/-- The chosen constructor stands for the same instruction. -/
def Statement (i : Instr) : Prop := i.canon.code = i.code

theorem nul (p : Bool) (r : SRight) :
    Statement (.nul p r) := Instr.code_canon _
theorem nulK (p : Bool) (k : Word) (r : SRight) :
    Statement (.nulK p k r) := Instr.code_canon _
theorem withNulRight (p : Bool) (l : SLeft) (k : Word) :
    Statement (.withNulRight p l k) := Instr.code_canon _
theorem ldConst (p : Bool) (dst : Reg) (k : Word) (r : SRight) :
    Statement (.ldConst p dst k r) := Instr.code_canon _
theorem ldAr (p : Bool) (dst : Reg) (a : Ix) (r : SRight) :
    Statement (.ldAr p dst a r) := Instr.code_canon _
theorem ldGr (p : Bool) (dst : Reg) (a : Ix) (r : SRight) :
    Statement (.ldGr p dst a r) := Instr.code_canon _
theorem ldArInc (p : Bool) (dst : Reg) (a : Ix) (r : SRight) :
    Statement (.ldArInc p dst a r) := Instr.code_canon _
theorem ldDecAr (p : Bool) (dst : Reg) (a : Ix) (r : SRight) :
    Statement (.ldDecAr p dst a r) := Instr.code_canon _
theorem ldArIncGr (p : Bool) (dst : Reg) (a : Ix) (r : SRight) :
    Statement (.ldArIncGr p dst a r) := Instr.code_canon _
theorem ldArAddGr (p : Bool) (dst : Reg) (a : Ix) (r : SRight) :
    Statement (.ldArAddGr p dst a r) := Instr.code_canon _
theorem ldArSetGr (p : Bool) (dst : Reg) (a : Ix) (r : SRight) :
    Statement (.ldArSetGr p dst a r) := Instr.code_canon _
theorem ldArSetConst (p : Bool) (dst : Reg) (a : Ix) (k : Word) (r : SRight) :
    Statement (.ldArSetConst p dst a k r) := Instr.code_canon _
theorem ldArAddConst (p : Bool) (dst : Reg) (a : Ix) (neg : Bool) (k : Word) (r : SRight) :
    Statement (.ldArAddConst p dst a neg k r) := Instr.code_canon _
theorem ldVctl (p : Bool) (dst : VCtl) (m : Mode) (k : Word) (r : SRight) :
    Statement (.ldVctl p dst m k r) := Instr.code_canon _
theorem stConst (p : Bool) (src : Reg) (k : Word) (r : SRight) :
    Statement (.stConst p src k r) := Instr.code_canon _
theorem stAr (p : Bool) (a : Ix) (src : Reg) (r : SRight) :
    Statement (.stAr p a src r) := Instr.code_canon _
theorem stGr (p : Bool) (a : Ix) (src : Reg) (r : SRight) :
    Statement (.stGr p a src r) := Instr.code_canon _
theorem stArInc (p : Bool) (a : Ix) (src : Reg) (r : SRight) :
    Statement (.stArInc p a src r) := Instr.code_canon _
theorem stDecAr (p : Bool) (a : Ix) (src : Reg) (r : SRight) :
    Statement (.stDecAr p a src r) := Instr.code_canon _
theorem stArIncGr (p : Bool) (a : Ix) (src : Reg) (r : SRight) :
    Statement (.stArIncGr p a src r) := Instr.code_canon _
theorem stArAddGr (p : Bool) (a : Ix) (src : Reg) (r : SRight) :
    Statement (.stArAddGr p a src r) := Instr.code_canon _
theorem stArSetGr (p : Bool) (a : Ix) (src : Reg) (r : SRight) :
    Statement (.stArSetGr p a src r) := Instr.code_canon _
theorem stArSetConst (p : Bool) (a : Ix) (src : Reg) (k : Word) (r : SRight) :
    Statement (.stArSetConst p a src k r) := Instr.code_canon _
theorem stArAddConst (p : Bool) (a : Ix) (neg : Bool) (src : Reg) (k : Word) (r : SRight) :
    Statement (.stArAddConst p a neg src k r) := Instr.code_canon _
theorem pushAr (p : Bool) (src : Ix) (r : SRight) :
    Statement (.pushAr p src r) := Instr.code_canon _
theorem pushGr (p : Bool) (src : Ix) (r : SRight) :
    Statement (.pushGr p src r) := Instr.code_canon _
theorem pushPair (p : Bool) (src : Ix) (r : SRight) :
    Statement (.pushPair p src r) := Instr.code_canon _
theorem popAr (p : Bool) (d : Ix) (r : SRight) :
    Statement (.popAr p d r) := Instr.code_canon _
theorem popGr (p : Bool) (d : Ix) (r : SRight) :
    Statement (.popGr p d r) := Instr.code_canon _
theorem popPair (p : Bool) (d : Ix) (r : SRight) :
    Statement (.popPair p d r) := Instr.code_canon _
theorem popDrop (p : Bool) (r : SRight) :
    Statement (.popDrop p r) := Instr.code_canon _
theorem stackOther (p : Bool) (isPop : Bool) (reg : Reg) (r : SRight) :
    Statement (.stackOther p isPop reg r) := Instr.code_canon _
theorem cpArAr (p : Bool) (d : Ix) (src : Ix) (r : SRight) :
    Statement (.cpArAr p d src r) := Instr.code_canon _
theorem cpGrAr (p : Bool) (d : Ix) (src : Ix) (r : SRight) :
    Statement (.cpGrAr p d src r) := Instr.code_canon _
theorem cpArGr (p : Bool) (d : Ix) (src : Ix) (r : SRight) :
    Statement (.cpArGr p d src r) := Instr.code_canon _
theorem cpGrGr (p : Bool) (d : Ix) (src : Ix) (r : SRight) :
    Statement (.cpGrGr p d src r) := Instr.code_canon _
theorem cpPairPair (p : Bool) (d : Ix) (src : Ix) (r : SRight) :
    Statement (.cpPairPair p d src r) := Instr.code_canon _
theorem cpPairAr (p : Bool) (d : Ix) (src : Ix) (r : SRight) :
    Statement (.cpPairAr p d src r) := Instr.code_canon _
theorem cpPairGr (p : Bool) (d : Ix) (src : Ix) (r : SRight) :
    Statement (.cpPairGr p d src r) := Instr.code_canon _
theorem cpVHalfAr (p : Bool) (d : VHalf) (src : Ix) (r : SRight) :
    Statement (.cpVHalfAr p d src r) := Instr.code_canon _
theorem cpVHalfGr (p : Bool) (d : VHalf) (src : Ix) (r : SRight) :
    Statement (.cpVHalfGr p d src r) := Instr.code_canon _
theorem cpVRegAr (p : Bool) (d : VReg) (src : Ix) (r : SRight) :
    Statement (.cpVRegAr p d src r) := Instr.code_canon _
theorem cpVRegGr (p : Bool) (d : VReg) (src : Ix) (r : SRight) :
    Statement (.cpVRegGr p d src r) := Instr.code_canon _
theorem cpVRegPair (p : Bool) (d : VReg) (src : Ix) (r : SRight) :
    Statement (.cpVRegPair p d src r) := Instr.code_canon _
theorem cpArSpec (p : Bool) (d : Ix) (src : SpecReg) (r : SRight) :
    Statement (.cpArSpec p d src r) := Instr.code_canon _
theorem cpGrSpec (p : Bool) (d : Ix) (src : SpecReg) (r : SRight) :
    Statement (.cpGrSpec p d src r) := Instr.code_canon _
theorem cpPairSpec (p : Bool) (d : Ix) (src : Special) (r : SRight) :
    Statement (.cpPairSpec p d src r) := Instr.code_canon _
theorem cpSpecPrim (p : Bool) (d : Special) (src : PReg) (r : SRight) :
    Statement (.cpSpecPrim p d src r) := Instr.code_canon _
theorem cpOther (p : Bool) (d : Reg) (src : Reg) (r : SRight) :
    Statement (.cpOther p d src r) := Instr.code_canon _
theorem setAr (p : Bool) (d : Ix) (k : Word) (r : SRight) :
    Statement (.setAr p d k r) := Instr.code_canon _
theorem setGr (p : Bool) (d : Ix) (k : Word) (r : SRight) :
    Statement (.setGr p d k r) := Instr.code_canon _
theorem setPair (p : Bool) (d : Ix) (k : Word) (r : SRight) :
    Statement (.setPair p d k r) := Instr.code_canon _
theorem setSpec (p : Bool) (d : Special) (k : Word) (r : SRight) :
    Statement (.setSpec p d k r) := Instr.code_canon _
theorem setVHalf (p : Bool) (d : VHalf) (k : Word) (r : SRight) :
    Statement (.setVHalf p d k r) := Instr.code_canon _
theorem setVReg (p : Bool) (d : VReg) (k : Word) (r : SRight) :
    Statement (.setVReg p d k r) := Instr.code_canon _
theorem amMovAr (p : Bool) (d : Ix) (src : Ix) (r : SRight) :
    Statement (.amMovAr p d src r) := Instr.code_canon _
theorem amMovGr (p : Bool) (d : Ix) (src : Ix) (r : SRight) :
    Statement (.amMovGr p d src r) := Instr.code_canon _
theorem amAddGr (p : Bool) (d : Ix) (src : Ix) (r : SRight) :
    Statement (.amAddGr p d src r) := Instr.code_canon _
theorem amAddConst (p : Bool) (d : Ix) (src : Ix) (neg : Bool) (k : Word) (r : SRight) :
    Statement (.amAddConst p d src neg k r) := Instr.code_canon _
theorem amSetConst (p : Bool) (d : Ix) (k : Word) (r : SRight) :
    Statement (.amSetConst p d k r) := Instr.code_canon _
theorem amInc (p : Bool) (d : Ix) (r : SRight) :
    Statement (.amInc p d r) := Instr.code_canon _
theorem amDec (p : Bool) (d : Ix) (r : SRight) :
    Statement (.amDec p d r) := Instr.code_canon _
theorem amIncGr (p : Bool) (d : Ix) (neg : Bool) (r : SRight) :
    Statement (.amIncGr p d neg r) := Instr.code_canon _
theorem amIncConst (p : Bool) (d : Ix) (k : Word) (r : SRight) :
    Statement (.amIncConst p d k r) := Instr.code_canon _
theorem amDecConst (p : Bool) (d : Ix) (k : Word) (r : SRight) :
    Statement (.amDecConst p d k r) := Instr.code_canon _
theorem pswrSet (p : Bool) (k : Word) (r : SRight) :
    Statement (.pswrSet p k r) := Instr.code_canon _
theorem pswrClear (p : Bool) (k : Word) (r : SRight) :
    Statement (.pswrClear p k r) := Instr.code_canon _
theorem gotoK (p : Bool) (c : Cond) (dl : Bool) (k : Word) (r : SRight) :
    Statement (.gotoK p c dl k r) := Instr.code_canon _
theorem gotoAr (p : Bool) (c : Cond) (dl : Bool) (src : Ix) (r : SRight) :
    Statement (.gotoAr p c dl src r) := Instr.code_canon _
theorem gotoGr (p : Bool) (c : Cond) (dl : Bool) (src : Ix) (r : SRight) :
    Statement (.gotoGr p c dl src r) := Instr.code_canon _
theorem gotoArGr (p : Bool) (c : Cond) (dl : Bool) (src : Ix) (r : SRight) :
    Statement (.gotoArGr p c dl src r) := Instr.code_canon _
theorem gotoArK (p : Bool) (c : Cond) (dl : Bool) (src : Ix) (neg : Bool) (k : Word) (r : SRight) :
    Statement (.gotoArK p c dl src neg k r) := Instr.code_canon _
theorem skipK (p : Bool) (c : Cond) (dl : Bool) (k : Word) (r : SRight) :
    Statement (.skipK p c dl k r) := Instr.code_canon _
theorem skipGr (p : Bool) (c : Cond) (dl : Bool) (src : Ix) (r : SRight) :
    Statement (.skipGr p c dl src r) := Instr.code_canon _
theorem callK (p : Bool) (c : Cond) (dl : Bool) (k : Word) (r : SRight) :
    Statement (.callK p c dl k r) := Instr.code_canon _
theorem callAr (p : Bool) (c : Cond) (dl : Bool) (src : Ix) (r : SRight) :
    Statement (.callAr p c dl src r) := Instr.code_canon _
theorem callGr (p : Bool) (c : Cond) (dl : Bool) (src : Ix) (r : SRight) :
    Statement (.callGr p c dl src r) := Instr.code_canon _
theorem callArGr (p : Bool) (c : Cond) (dl : Bool) (src : Ix) (r : SRight) :
    Statement (.callArGr p c dl src r) := Instr.code_canon _
theorem callArK (p : Bool) (c : Cond) (dl : Bool) (src : Ix) (neg : Bool) (k : Word) (r : SRight) :
    Statement (.callArK p c dl src neg k r) := Instr.code_canon _
theorem callrelK (p : Bool) (c : Cond) (dl : Bool) (k : Word) (r : SRight) :
    Statement (.callrelK p c dl k r) := Instr.code_canon _
theorem callrelGr (p : Bool) (c : Cond) (dl : Bool) (src : Ix) (r : SRight) :
    Statement (.callrelGr p c dl src r) := Instr.code_canon _
theorem ret (p : Bool) (c : Cond) (dl : Bool) (r : SRight) :
    Statement (.ret p c dl r) := Instr.code_canon _
theorem iret (p : Bool) (c : Cond) (dl : Bool) (r : SRight) :
    Statement (.iret p c dl r) := Instr.code_canon _
theorem add (p : Bool) (l : SLeft) (k : Word) (nf : Bool) (d : Ix) (a : Ix) (b : Ix) :
    Statement (.add p l k nf d a b) := Instr.code_canon _
theorem addTo (p : Bool) (l : SLeft) (k : Word) (nf : Bool) (d : Ix) (b : Ix) :
    Statement (.addTo p l k nf d b) := Instr.code_canon _
theorem inc (p : Bool) (l : SLeft) (k : Word) (nf : Bool) (d : Ix) (a : Ix) :
    Statement (.inc p l k nf d a) := Instr.code_canon _
theorem incSelf (p : Bool) (l : SLeft) (k : Word) (nf : Bool) (d : Ix) :
    Statement (.incSelf p l k nf d) := Instr.code_canon _
theorem sub (p : Bool) (l : SLeft) (k : Word) (nf : Bool) (d : Ix) (a : Ix) (b : Ix) :
    Statement (.sub p l k nf d a b) := Instr.code_canon _
theorem subFrom (p : Bool) (l : SLeft) (k : Word) (nf : Bool) (d : Ix) (b : Ix) :
    Statement (.subFrom p l k nf d b) := Instr.code_canon _
theorem dec (p : Bool) (l : SLeft) (k : Word) (nf : Bool) (d : Ix) (a : Ix) :
    Statement (.dec p l k nf d a) := Instr.code_canon _
theorem decSelf (p : Bool) (l : SLeft) (k : Word) (nf : Bool) (d : Ix) :
    Statement (.decSelf p l k nf d) := Instr.code_canon _
theorem addC (p : Bool) (l : SLeft) (k : Word) (nf : Bool) (d : Ix) (a : Ix) :
    Statement (.addC p l k nf d a) := Instr.code_canon _
theorem addBC (p : Bool) (l : SLeft) (k : Word) (nf : Bool) (d : Ix) (a : Ix) (b : Ix) :
    Statement (.addBC p l k nf d a b) := Instr.code_canon _
theorem subC (p : Bool) (l : SLeft) (k : Word) (nf : Bool) (d : Ix) (a : Ix) :
    Statement (.subC p l k nf d a) := Instr.code_canon _
theorem subBC (p : Bool) (l : SLeft) (k : Word) (nf : Bool) (d : Ix) (a : Ix) (b : Ix) :
    Statement (.subBC p l k nf d a b) := Instr.code_canon _
theorem negGr (p : Bool) (l : SLeft) (k : Word) (nf : Bool) (d : Ix) (a : Ix) :
    Statement (.negGr p l k nf d a) := Instr.code_canon _
theorem mulFirst (p : Bool) (l : SLeft) (k : Word) (nf : Bool) (d : Ix) (a : Ix) :
    Statement (.mulFirst p l k nf d a) := Instr.code_canon _
theorem mulNext (p : Bool) (l : SLeft) (k : Word) (nf : Bool) (d : Ix) (a : Ix) :
    Statement (.mulNext p l k nf d a) := Instr.code_canon _
theorem addFlags (p : Bool) (l : SLeft) (k : Word) (a : Ix) (b : Ix) :
    Statement (.addFlags p l k a b) := Instr.code_canon _
theorem orGr (p : Bool) (l : SLeft) (k : Word) (nf : Bool) (d : Ix) (a : Ix) (b : Ix) :
    Statement (.orGr p l k nf d a b) := Instr.code_canon _
theorem andGr (p : Bool) (l : SLeft) (k : Word) (nf : Bool) (d : Ix) (a : Ix) (b : Ix) :
    Statement (.andGr p l k nf d a b) := Instr.code_canon _
theorem xorGr (p : Bool) (l : SLeft) (k : Word) (nf : Bool) (d : Ix) (a : Ix) (b : Ix) :
    Statement (.xorGr p l k nf d a b) := Instr.code_canon _
theorem notGr (p : Bool) (l : SLeft) (k : Word) (nf : Bool) (d : Ix) (a : Ix) :
    Statement (.notGr p l k nf d a) := Instr.code_canon _
theorem notAorB (p : Bool) (l : SLeft) (k : Word) (nf : Bool) (d : Ix) (a : Ix) (b : Ix) :
    Statement (.notAorB p l k nf d a b) := Instr.code_canon _
theorem aOrNotB (p : Bool) (l : SLeft) (k : Word) (nf : Bool) (d : Ix) (a : Ix) (b : Ix) :
    Statement (.aOrNotB p l k nf d a b) := Instr.code_canon _
theorem copyGr (p : Bool) (l : SLeft) (k : Word) (nf : Bool) (d : Ix) (a : Ix) :
    Statement (.copyGr p l k nf d a) := Instr.code_canon _
theorem notAorNotB (p : Bool) (l : SLeft) (k : Word) (nf : Bool) (d : Ix) (a : Ix) (b : Ix) :
    Statement (.notAorNotB p l k nf d a b) := Instr.code_canon _
theorem notAandB (p : Bool) (l : SLeft) (k : Word) (nf : Bool) (d : Ix) (a : Ix) (b : Ix) :
    Statement (.notAandB p l k nf d a b) := Instr.code_canon _
theorem aAndNotB (p : Bool) (l : SLeft) (k : Word) (nf : Bool) (d : Ix) (a : Ix) (b : Ix) :
    Statement (.aAndNotB p l k nf d a b) := Instr.code_canon _
theorem notAandNotB (p : Bool) (l : SLeft) (k : Word) (nf : Bool) (d : Ix) (a : Ix) (b : Ix) :
    Statement (.notAandNotB p l k nf d a b) := Instr.code_canon _
theorem notAxorB (p : Bool) (l : SLeft) (k : Word) (nf : Bool) (d : Ix) (a : Ix) (b : Ix) :
    Statement (.notAxorB p l k nf d a b) := Instr.code_canon _
theorem aXorNotB (p : Bool) (l : SLeft) (k : Word) (nf : Bool) (d : Ix) (a : Ix) (b : Ix) :
    Statement (.aXorNotB p l k nf d a b) := Instr.code_canon _
theorem setFalse (p : Bool) (l : SLeft) (k : Word) (nf : Bool) (d : Ix) :
    Statement (.setFalse p l k nf d) := Instr.code_canon _
theorem setTrue (p : Bool) (l : SLeft) (k : Word) (nf : Bool) (d : Ix) :
    Statement (.setTrue p l k nf d) := Instr.code_canon _
theorem testGr (p : Bool) (l : SLeft) (k : Word) (a : Ix) :
    Statement (.testGr p l k a) := Instr.code_canon _
theorem testNeg (p : Bool) (l : SLeft) (k : Word) (a : Ix) :
    Statement (.testNeg p l k a) := Instr.code_canon _
theorem testExpr (p : Bool) (l : SLeft) (k : Word) (fn : AluFn) (a : Ix) (b : Ix) :
    Statement (.testExpr p l k fn a b) := Instr.code_canon _
theorem flagsTrue (p : Bool) (l : SLeft) (k : Word) :
    Statement (.flagsTrue p l k) := Instr.code_canon _
theorem flagsFalse (p : Bool) (l : SLeft) (k : Word) :
    Statement (.flagsFalse p l k) := Instr.code_canon _
theorem shl (p : Bool) (l : SLeft) (k : Word) (d : Ix) (a : Ix) (n : Fin 33) :
    Statement (.shl p l k d a n) := Instr.code_canon _
theorem shr (p : Bool) (l : SLeft) (k : Word) (d : Ix) (a : Ix) (n : Fin 33) :
    Statement (.shr p l k d a n) := Instr.code_canon _
theorem sar (p : Bool) (l : SLeft) (k : Word) (d : Ix) (a : Ix) (n : Fin 33) :
    Statement (.sar p l k d a n) := Instr.code_canon _
theorem rol (p : Bool) (l : SLeft) (k : Word) (d : Ix) (a : Ix) (n : Fin 33) :
    Statement (.rol p l k d a n) := Instr.code_canon _
theorem ror (p : Bool) (l : SLeft) (k : Word) (d : Ix) (a : Ix) (n : Fin 33) :
    Statement (.ror p l k d a n) := Instr.code_canon _
theorem rcl (p : Bool) (l : SLeft) (k : Word) (d : Ix) (a : Ix) :
    Statement (.rcl p l k d a) := Instr.code_canon _
theorem rcr (p : Bool) (l : SLeft) (k : Word) (d : Ix) (a : Ix) :
    Statement (.rcr p l k d a) := Instr.code_canon _
theorem vLdData (p : Bool) (n : Rep) (m : VMode) (f : Bool) (w : Bool) (r : VRight) :
    Statement (.vLdData p n m f w r) := Instr.code_canon _
theorem vLdRam (p : Bool) (n : Rep) (m : VMode) (f : Bool) (w : Bool) (r : VRight) :
    Statement (.vLdRam p n m f w r) := Instr.code_canon _
theorem vLdWfifo (p : Bool) (n : Rep) (m : VMode) (f : Bool) (w : Bool) (r : VRight) :
    Statement (.vLdWfifo p n m f w r) := Instr.code_canon _
theorem vLdAr (p : Bool) (n : Rep) (b : LBuf) (a : Ix) (f : Bool) (w : Bool) (r : VRight) :
    Statement (.vLdAr p n b a f w r) := Instr.code_canon _
theorem vLdGr (p : Bool) (n : Rep) (b : LBuf) (a : Ix) (f : Bool) (w : Bool) (r : VRight) :
    Statement (.vLdGr p n b a f w r) := Instr.code_canon _
theorem vLdArSetGr (p : Bool) (n : Rep) (b : LBuf) (a : Ix) (f : Bool) (w : Bool) (r : VRight) :
    Statement (.vLdArSetGr p n b a f w r) := Instr.code_canon _
theorem vLdArInc (p : Bool) (n : Rep) (b : LBuf) (a : Ix) (f : Bool) (w : Bool) (r : VRight) :
    Statement (.vLdArInc p n b a f w r) := Instr.code_canon _
theorem vLdDecAr (p : Bool) (n : Rep) (b : LBuf) (a : Ix) (f : Bool) (w : Bool) (r : VRight) :
    Statement (.vLdDecAr p n b a f w r) := Instr.code_canon _
theorem vLdArIncGr (p : Bool) (n : Rep) (b : LBuf) (a : Ix) (f : Bool) (w : Bool) (r : VRight) :
    Statement (.vLdArIncGr p n b a f w r) := Instr.code_canon _
theorem vLdArAddGr (p : Bool) (n : Rep) (b : LBuf) (a : Ix) (f : Bool) (w : Bool) (r : VRight) :
    Statement (.vLdArAddGr p n b a f w r) := Instr.code_canon _
theorem vSt (p : Bool) (n : Rep) (m : VMode) (f : Bool) (w : Bool) (r : VRight) :
    Statement (.vSt p n m f w r) := Instr.code_canon _
theorem vStRam (p : Bool) (n : Rep) (m : VMode) (f : Bool) (w : Bool) (r : VRight) :
    Statement (.vStRam p n m f w r) := Instr.code_canon _
theorem vStAr (p : Bool) (n : Rep) (a : Ix) (f : Bool) (w : Bool) (r : VRight) :
    Statement (.vStAr p n a f w r) := Instr.code_canon _
theorem vStGr (p : Bool) (n : Rep) (a : Ix) (f : Bool) (w : Bool) (r : VRight) :
    Statement (.vStGr p n a f w r) := Instr.code_canon _
theorem vStArSetGr (p : Bool) (n : Rep) (a : Ix) (f : Bool) (w : Bool) (r : VRight) :
    Statement (.vStArSetGr p n a f w r) := Instr.code_canon _
theorem vStArInc (p : Bool) (n : Rep) (a : Ix) (f : Bool) (w : Bool) (r : VRight) :
    Statement (.vStArInc p n a f w r) := Instr.code_canon _
theorem vStDecAr (p : Bool) (n : Rep) (a : Ix) (f : Bool) (w : Bool) (r : VRight) :
    Statement (.vStDecAr p n a f w r) := Instr.code_canon _
theorem vStArIncGr (p : Bool) (n : Rep) (a : Ix) (f : Bool) (w : Bool) (r : VRight) :
    Statement (.vStArIncGr p n a f w r) := Instr.code_canon _
theorem vStArAddGr (p : Bool) (n : Rep) (a : Ix) (f : Bool) (w : Bool) (r : VRight) :
    Statement (.vStArAddGr p n a f w r) := Instr.code_canon _
theorem vStRamCopy (p : Bool) (n : Rep) (m : VMode) (f : Bool) (w : Bool) (r : VRight) :
    Statement (.vStRamCopy p n m f w r) := Instr.code_canon _
theorem vNoLeft (p : Bool) (n : Rep) (r : VRight) :
    Statement (.vNoLeft p n r) := Instr.code_canon _
theorem vnul (p : Bool) :
    Statement (.vnul p) := Instr.code_canon _
theorem wfifoLd (p : Bool) (n : Rep) (m : VMode) (r : VRight) :
    Statement (.wfifoLd p n m r) := Instr.code_canon _
theorem wfifoLdFtw (p : Bool) (n : Rep) (m : VMode) (r : VRight) :
    Statement (.wfifoLdFtw p n m r) := Instr.code_canon _
theorem wfifoLdFtwWtw (p : Bool) (n : Rep) (m : VMode) (r : VRight) :
    Statement (.wfifoLdFtwWtw p n m r) := Instr.code_canon _
theorem ftw (p : Bool) :
    Statement (.ftw p) := Instr.code_canon _
theorem ftwWith (p : Bool) (n : Rep) (w : Bool) (r : VRight) :
    Statement (.ftwWith p n w r) := Instr.code_canon _
theorem wtw (p : Bool) (o : Option (Rep × VRight)) :
    Statement (.wtw p o) := Instr.code_canon _
theorem ftwWtw (p : Bool) :
    Statement (.ftwWtw p) := Instr.code_canon _
theorem vNoRight (p : Bool) (n : Rep) (l : VLeft) :
    Statement (.vNoRight p n l) := Instr.code_canon _
theorem vOr (p : Bool) (n : Rep) (l : VLeft) (x : VSrc) (y : VSrc) :
    Statement (.vOr p n l x y) := Instr.code_canon _
theorem vAnd (p : Bool) (n : Rep) (l : VLeft) (x : VSrc) (y : VSrc) :
    Statement (.vAnd p n l x y) := Instr.code_canon _
theorem vXor (p : Bool) (n : Rep) (l : VLeft) (x : VSrc) (y : VSrc) :
    Statement (.vXor p n l x y) := Instr.code_canon _
theorem vNot (p : Bool) (n : Rep) (l : VLeft) (x : VSrc) :
    Statement (.vNot p n l x) := Instr.code_canon _
theorem vNotOr (p : Bool) (n : Rep) (l : VLeft) (x : VSrc) (y : VSrc) :
    Statement (.vNotOr p n l x y) := Instr.code_canon _
theorem vOrNot (p : Bool) (n : Rep) (l : VLeft) (x : VSrc) (y : VSrc) :
    Statement (.vOrNot p n l x y) := Instr.code_canon _
theorem vNotOrNot (p : Bool) (n : Rep) (l : VLeft) (x : VSrc) (y : VSrc) :
    Statement (.vNotOrNot p n l x y) := Instr.code_canon _
theorem vNotAnd (p : Bool) (n : Rep) (l : VLeft) (x : VSrc) (y : VSrc) :
    Statement (.vNotAnd p n l x y) := Instr.code_canon _
theorem vAndNot (p : Bool) (n : Rep) (l : VLeft) (x : VSrc) (y : VSrc) :
    Statement (.vAndNot p n l x y) := Instr.code_canon _
theorem vNotAndNot (p : Bool) (n : Rep) (l : VLeft) (x : VSrc) (y : VSrc) :
    Statement (.vNotAndNot p n l x y) := Instr.code_canon _
theorem vNotXor (p : Bool) (n : Rep) (l : VLeft) (x : VSrc) (y : VSrc) :
    Statement (.vNotXor p n l x y) := Instr.code_canon _
theorem vFalse (p : Bool) (n : Rep) (l : VLeft) :
    Statement (.vFalse p n l) := Instr.code_canon _
theorem vTrue (p : Bool) (n : Rep) (l : VLeft) :
    Statement (.vTrue p n l) := Instr.code_canon _
theorem vAdd (p : Bool) (n : Rep) (l : VLeft) (x : VSrc) (y : VSrc) :
    Statement (.vAdd p n l x y) := Instr.code_canon _
theorem vSub (p : Bool) (n : Rep) (l : VLeft) (x : VSrc) (y : VSrc) :
    Statement (.vSub p n l x y) := Instr.code_canon _
theorem vNegY (p : Bool) (n : Rep) (l : VLeft) (y : VSrc) :
    Statement (.vNegY p n l y) := Instr.code_canon _
theorem vInc (p : Bool) (n : Rep) (l : VLeft) (x : VSrc) :
    Statement (.vInc p n l x) := Instr.code_canon _
theorem vOne (p : Bool) (n : Rep) (l : VLeft) :
    Statement (.vOne p n l) := Instr.code_canon _
theorem vDec (p : Bool) (n : Rep) (l : VLeft) (x : VSrc) :
    Statement (.vDec p n l x) := Instr.code_canon _
theorem vMinusOne (p : Bool) (n : Rep) (l : VLeft) :
    Statement (.vMinusOne p n l) := Instr.code_canon _
theorem vMask (p : Bool) (n : Rep) (l : VLeft) (m : Buf) (x : VSrc) (y : VSrc) :
    Statement (.vMask p n l m x y) := Instr.code_canon _
theorem vMaskShift (p : Bool) (n : Rep) (l : VLeft) (m : Buf) (x : VSrc) (y : VSrc) :
    Statement (.vMaskShift p n l m x y) := Instr.code_canon _
theorem vSum0 (p : Bool) (n : Rep) (l : VLeft) (x : VSrc) :
    Statement (.vSum0 p n l x) := Instr.code_canon _
theorem vSumY (p : Bool) (n : Rep) (l : VLeft) (x : VSrc) (y : VSrc) :
    Statement (.vSumY p n l x y) := Instr.code_canon _
theorem vSumMask (p : Bool) (n : Rep) (l : VLeft) (m : Buf) (x : VSrc) (y : VSrc) :
    Statement (.vSumMask p n l m x y) := Instr.code_canon _
theorem vSumShift (p : Bool) (n : Rep) (l : VLeft) (m : Option Buf) (x : VSrc) (y : VSrc) :
    Statement (.vSumShift p n l m x y) := Instr.code_canon _
theorem vActXOr (p : Bool) (n : Rep) (l : VLeft) (x : VSrc) (y : VSrc) :
    Statement (.vActXOr p n l x y) := Instr.code_canon _
theorem vNotActXAnd (p : Bool) (n : Rep) (l : VLeft) (x : VSrc) (y : VSrc) :
    Statement (.vNotActXAnd p n l x y) := Instr.code_canon _
theorem vOrActY (p : Bool) (n : Rep) (l : VLeft) (x : VSrc) (y : VSrc) :
    Statement (.vOrActY p n l x y) := Instr.code_canon _
theorem vAndNotActY (p : Bool) (n : Rep) (l : VLeft) (x : VSrc) (y : VSrc) :
    Statement (.vAndNotActY p n l x y) := Instr.code_canon _
theorem vActXXorActY (p : Bool) (n : Rep) (l : VLeft) (x : VSrc) (y : VSrc) :
    Statement (.vActXXorActY p n l x y) := Instr.code_canon _
theorem vNotActXAndNotActY (p : Bool) (n : Rep) (l : VLeft) (x : VSrc) (y : VSrc) :
    Statement (.vNotActXAndNotActY p n l x y) := Instr.code_canon _
theorem vMaskActX (p : Bool) (n : Rep) (l : VLeft) (m : Buf) (x : VSrc) (y : VSrc) :
    Statement (.vMaskActX p n l m x y) := Instr.code_canon _
theorem vMaskActY (p : Bool) (n : Rep) (l : VLeft) (m : Buf) (x : VSrc) (y : VSrc) :
    Statement (.vMaskActY p n l m x y) := Instr.code_canon _
theorem vMaskActXY (p : Bool) (n : Rep) (l : VLeft) (m : Buf) (x : VSrc) (y : VSrc) :
    Statement (.vMaskActXY p n l m x y) := Instr.code_canon _
theorem vMaskShiftActX (p : Bool) (n : Rep) (l : VLeft) (m : Buf) (x : VSrc) (y : VSrc) :
    Statement (.vMaskShiftActX p n l m x y) := Instr.code_canon _
theorem vActXAdd (p : Bool) (n : Rep) (l : VLeft) (x : VSrc) (y : VSrc) :
    Statement (.vActXAdd p n l x y) := Instr.code_canon _
theorem vSubActY (p : Bool) (n : Rep) (l : VLeft) (x : VSrc) (y : VSrc) :
    Statement (.vSubActY p n l x y) := Instr.code_canon _
theorem vActXAddActY (p : Bool) (n : Rep) (l : VLeft) (x : VSrc) (y : VSrc) :
    Statement (.vActXAddActY p n l x y) := Instr.code_canon _
theorem vSumActX (p : Bool) (n : Rep) (l : VLeft) (x : VSrc) (y : VSrc) :
    Statement (.vSumActX p n l x y) := Instr.code_canon _
theorem vSumActY (p : Bool) (n : Rep) (l : VLeft) (x : VSrc) (y : VSrc) :
    Statement (.vSumActY p n l x y) := Instr.code_canon _
theorem vSumMaskActXY (p : Bool) (n : Rep) (l : VLeft) (m : Buf) (x : VSrc) (y : VSrc) :
    Statement (.vSumMaskActXY p n l m x y) := Instr.code_canon _
theorem vSumShiftActX (p : Bool) (n : Rep) (l : VLeft) (x : VSrc) :
    Statement (.vSumShiftActX p n l x) := Instr.code_canon _
theorem vAnyActivated (p : Bool) (n : Rep) (l : VLeft) (r : VRight) :
    Statement (.vAnyActivated p n l r) := Instr.code_canon _
theorem storeVregs (p : Bool) (n : Rep) (l : VLeft) :
    Statement (.storeVregs p n l) := Instr.code_canon _

end CanonCode

end Sys2Proof.Laws
end

