-- ==== Sys2Proof/Tests/Slice0.lean ====
section
/-! SUPPORT. The model's own tests. Expected values come from spec/95_test_vectors.md (named TV- and T-src- as there)
or, where a comment says so, are worked out by hand from the rule it names. After them, for every statement of
Certificates/Slice0/Obligations.lean that has hypotheses, states and operands that meet them (`witness_…`). -/

-- Elaborating one declaration after another keeps the number of threads, and so the memory, small.
set_option Elab.async false

namespace Sys2Proof.Tests

open Sys2Proof Sys2Proof.Machine

/-! ### Helpers -/

/-- What `f` sees of the next state of one instruction; none where there is no next state. -/
def got {α : Type} (i : Instr) (s : State) (f : State → α) : Option α :=
  match exec i s with
  | .next t => some (f t)
  | .fault _ | .refused _ => none

/-- What `f` sees of the next state of one step. -/
def stepped {α : Type} (s : State) (f : State → α) : Option α :=
  match step s with
  | .next t => some (f t)
  | .fault _ | .refused _ => none

/-- The name an instruction is refused with. -/
def refusal (i : Instr) (s : State) : Option Refusal :=
  match exec i s with
  | .refused r => some r
  | .next _ | .fault _ => none

/-- The reset state with ipc, pswr, some registers and some words of memory set. -/
def at' (pc ps : Word) (ars grs : List (Ix × Word)) (mem : List (Word × Word)) : State :=
  mem.foldl (fun s e => s.poke e.1 e.2)
    (grs.foldl (fun s e => s.setGr e.1 e.2)
      (ars.foldl (fun s e => s.setAr e.1 e.2) { State.reset with ipc := pc, pswr := ps }))

/-- The destination, the flags N Z V C and the request SPR after an operation on gr1 = `a` and gr2 = `b`, with the
flags `f` before it. -/
def alu (i : Instr) (f : Word) (a b : Word) : Option (Word × BitVec 4 × Bool) :=
  got i (at' 0 f [] [(1, a), (2, b)] []) fun t => (t.gr 0, t.flags, t.ireq.getLsbD 7)

/-- A word of memory. -/
def mem (t : State) (a : Word) : Word := Memory.word t.mem a

/-! ### Well-formedness: one ill-formed instruction for each check -/

theorem test_illFormed_pcAsData :
    (Instr.cpArSpec false 0 .pc .nul).code.low.defect = some .pcAsData := by decide

theorem test_illFormed_pcAsDestination :
    (Instr.stackOther false true (.special (.one .pc)) .nul).code.low.defect = some .pcAsDestination := by decide

theorem test_illFormed_intrAsDestination :
    (Instr.cpSpecPrim false (.one .intr) (.gr 0) .nul).code.low.defect = some .intrAsDestination := by decide

theorem test_illFormed_intrStored :
    (Instr.stAr false 0 (.special (.one .intr)) .nul).code.low.defect = some .intrStored := by decide

theorem test_illFormed_writeOnlySource :
    (Instr.stAr false 0 (.vctl (.full .vr)) .nul).code.low.defect = some .writeOnlySource := by decide

/-- TV-mem-4: `gr0 = ar4,gr4;` -/
theorem test_illFormed_narrowingCopy :
    (Instr.cpOther false (.gr 0) (.pair 4) .nul).code.low.defect = some .narrowingCopy := by decide

/-- TV-mem-5: `ar0 = ar4+gr4;` -/
theorem test_illFormed_dagGroups :
    (Instr.amAddGr false 0 4 .nul).code.low.defect = some .dagGroups := by decide

/-- TV-mem-3 (d): `gr0 = [ar1++] with gr0 = gr2 + gr3;` -/
theorem test_illFormed_bothPartsWriteGr :
    (Instr.ldArInc false (.gr 0) 1 (.alu (.std 0) .add 2 3)).code.low.defect = some .bothPartsWriteGr := by decide

theorem test_illFormed_multiplyFlagsOnly :
    (Instr.testExpr false .nul 0 .mulFirst 1 1).code.low.defect = some .multiplyFlagsOnly := by decide

theorem test_illFormed_multiplyOperand :
    (Instr.nul false (.alu (.std 0) .mulNext 1 2)).code.low.defect = some .multiplyOperand := by decide

theorem test_illFormed_surplusOperand :
    (Instr.nul false (.alu (.std 0) .inc 1 2)).code.low.defect = some .surplusOperand := by decide

/-- R606, R607: `C<<` and `C>>` by 2; by 32 it is no operation (R600). -/
theorem test_illFormed_rotateAmount :
    (Instr.nul false (.shift .rcl 0 1 2)).code.low.defect = some .rotateAmount ∧
    (Instr.nul false (.shift .rcr 0 1 31)).code.low.defect = some .rotateAmount ∧
    (Instr.nul false (.shift .rcr 0 1 32)).code.low.defect = none := by decide

theorem test_illFormed_operandOutsideTables :
    (Instr.vAdd false 0 ⟨.none, false, false⟩ .one .vr).code.low.defect = some .operandOutsideTables := by decide

/-- TV-vregs-1: `rep 4 with store vregs;` -/
theorem test_illFormed_storeVregsCount :
    (Instr.storeVregs false 3 ⟨.none, false, false⟩).code.low.defect = some .storeVregsCount := by decide

theorem test_illFormed_wtwWithArithmetic :
    (Instr.vInc false 0 ⟨.none, false, true⟩ (.buf .ram)).code.low.defect = some .wtwWithArithmetic := by decide

/-- A refused instruction is refused with the name of its defect. -/
theorem test_refused_by_name :
    refusal (.amAddGr false 0 4 .nul) State.reset = some (.illFormed .dagGroups) := by decide

/-! ### Decoding: the one encoding the source gives (R262), and that others are read back -/

theorem test_decode_vnul : decode 0#32 0xFFFFFFFF#32 = .ok (.vnul false) := rfl

theorem test_decodeTableWord_vnul : decodeTableWord 32 0 = some (.vnul false) := by decide

theorem test_encode_vnul : encode (.vnul false) = [0] := by decide

/-- A long instruction takes its constant from the word after its low word (R263, R267). -/
theorem test_decode_long : ∃ w, decode w 0x250 = .ok (.gotoK false .eq0 true 0x250 .nul) :=
  ⟨_, decode_wordOfLow (.scalar false (.xfer .eq0 true (.goto .const)) .nul) 0x250 rfl⟩

/-- One low word for each kind of part is read back. -/
theorem test_decode_short :
    (∃ w, decode w 9 = .ok (.ldArInc true (.pair 2) 3 (.alu (.noflags 1) .sub 4 5))) ∧
    (∃ w, decode w 9 = .ok (.pushAr false 7 (.shift .rcl 1 2 1))) ∧
    (∃ w, decode w 9 = .ok (.vLdWfifo false 31 (.arSetGr 6) true true .none)) ∧
    (∃ w, decode w 9 = .ok (.vNoLeft false 4 .storeRegs)) ∧
    (∃ w, decode w 9 = .ok (.ftwWtw true)) :=
  ⟨⟨_, decode_wordOfLow (.scalar true (.load (.pair 2) (.arInc 3)) (.alu (.noflags 1) .sub 4 5)) 9 rfl⟩,
    ⟨_, decode_wordOfLow (.scalar false (.push (.ar 7)) (.shift .rcl 1 2 1)) 9 rfl⟩,
    ⟨_, decode_wordOfLow (.vector false 31 ⟨.load .wfifo (.arSetGr 6), true, true⟩ .none) 9 rfl⟩,
    ⟨_, decode_wordOfLow (.vector false 4 ⟨.none, false, false⟩ .storeRegs) 9 rfl⟩,
    ⟨_, decode_wordOfLow (.bare true .ftwWtw) 9 rfl⟩⟩

/-- From reset with the zero word placed, the step runs `vnul`. -/
theorem test_step_vnul : step (State.reset.withFetchWord 32 0) = exec (.vnul false) (State.reset.withFetchWord 32 0) :=
  rfl

/-! ### Scalar arithmetic (TV-arith-1, 2) -/

theorem test_add :
    alu (.add false .nul 0 false 0 1 2) 0 0xFFFFFFFF 1 = some (0, 0b0101#4, false) ∧
    alu (.add false .nul 0 false 0 1 2) 0 0x7FFFFFFF 1 = some (0x80000000, 0b1010#4, true) ∧
    alu (.add false .nul 0 false 0 1 2) 0 0x80000000 0x80000000 = some (0, 0b0111#4, true) := by decide

/-- TV-arith-2: the noflags form writes no flag and requests nothing. -/
theorem test_add_noflags :
    alu (.add false .nul 0 true 0 1 2) 4 0x7FFFFFFF 1 = some (0x80000000, 0b0100#4, false) := by decide

/-- TV-arith-2: the flags-only form leaves the registers alone. -/
theorem test_addFlags :
    alu (.addFlags false .nul 0 1 2) 4 0x7FFFFFFF 1 = some (0, 0b1010#4, true) := by decide

theorem test_addTo :
    got (.addTo false .nul 0 false 1 2) (at' 0 0 [] [(1, 2), (2, 3)] []) (fun t => (t.gr 1, t.flags)) =
      some (5, 0b0000#4) := by decide

theorem test_inc :
    alu (.inc false .nul 0 false 0 1) 0 0xFFFFFFFF 0 = some (0, 0b0101#4, false) ∧
    alu (.inc false .nul 0 false 0 1) 0 0x7FFFFFFF 0 = some (0x80000000, 0b1010#4, true) := by decide

theorem test_incSelf :
    got (.incSelf false .nul 0 false 1) (at' 0 0 [] [(1, 0xFFFFFFFF)] []) (fun t => (t.gr 1, t.flags)) =
      some (0, 0b0101#4) := by decide

theorem test_sub :
    alu (.sub false .nul 0 false 0 1 2) 0 5 7 = some (0xFFFFFFFE, 0b1001#4, false) ∧
    alu (.sub false .nul 0 false 0 1 2) 0 7 7 = some (0, 0b0100#4, false) ∧
    alu (.sub false .nul 0 false 0 1 2) 0 0x7FFFFFFF 0xFFFFFFFF = some (0x80000000, 0b1011#4, true) := by decide

/-- TV-arith-1, the sentence after the table: with CarrySense = carry the C column is inverted. -/
theorem test_sub_notBorrow :
    got (.sub false .nul 0 false 0 1 2)
      { at' 0 0 [] [(1, 5), (2, 7)] [] with params := { Config.Params.default with carrySense := .notBorrow } }
      (fun t => (t.gr 0, t.flags)) = some (0xFFFFFFFE, 0b1000#4) := by decide

theorem test_subFrom :
    got (.subFrom false .nul 0 false 1 2) (at' 0 0 [] [(1, 0x80000000), (2, 1)] []) (fun t => (t.gr 1, t.flags)) =
      some (0x7FFFFFFF, 0b0010#4) := by decide

theorem test_dec :
    alu (.dec false .nul 0 false 0 1) 0 0 0 = some (0xFFFFFFFF, 0b1001#4, false) ∧
    alu (.dec false .nul 0 false 0 1) 0 0x80000000 0 = some (0x7FFFFFFF, 0b0010#4, true) := by decide

theorem test_decSelf :
    got (.decSelf false .nul 0 false 1) (at' 0 0 [] [(1, 1)] []) (fun t => (t.gr 1, t.flags)) =
      some (0, 0b0100#4) := by decide

theorem test_addC :
    alu (.addC false .nul 0 false 0 1) 1 0xFFFFFFFF 0 = some (0, 0b0101#4, false) ∧
    alu (.addC false .nul 0 false 0 1) 0 5 0 = some (5, 0b0000#4, false) := by decide

theorem test_addBC : alu (.addBC false .nul 0 false 0 1 2) 1 1 2 = some (4, 0b0000#4, false) := by decide

theorem test_subC :
    alu (.subC false .nul 0 false 0 1) 1 5 0 = some (5, 0b0000#4, false) ∧
    alu (.subC false .nul 0 false 0 1) 0 0 0 = some (0xFFFFFFFF, 0b1001#4, false) := by decide

theorem test_subBC :
    alu (.subBC false .nul 0 false 0 1 2) 1 10 3 = some (7, 0b0000#4, false) ∧
    alu (.subBC false .nul 0 false 0 1 2) 0 10 3 = some (6, 0b0000#4, false) := by decide

theorem test_negGr :
    alu (.negGr false .nul 0 false 0 1) 0 1 0 = some (0xFFFFFFFF, 0b1001#4, false) ∧
    alu (.negGr false .nul 0 false 0 1) 0 0x80000000 0 = some (0x80000000, 0b1011#4, true) := by decide

/-- R575: gr7 and the destination take what the parameter gives. -/
theorem test_mulFirst :
    got (.mulFirst false .nul 0 true 0 1) (at' 0 5 [] [(1, 3), (7, 4)] []) (fun t => (t.gr 0, t.gr 7, t.flags)) =
      some ((Config.mulFirstStep 3 4 5).1, (Config.mulFirstStep 3 4 5).2.1, 5) := rfl

theorem test_mulNext :
    got (.mulNext false .nul 0 true 0 1) (at' 0 5 [] [(1, 3), (7, 4)] []) (fun t => (t.gr 0, t.gr 7, t.flags)) =
      some ((Config.mulNextStep 3 4 5).1, (Config.mulNextStep 3 4 5).2.1, 5) := rfl

/-! ### Scalar logic (TV-logic-1, 2): A = F0F0F0F0h, B = FF00FF00h -/

/-- The result and the flags of a logical operation on the operands of TV-logic-1, from NZVC = 0011. -/
def logic (i : Instr) : Option (Word × BitVec 4) :=
  got i (at' 0 3 [] [(1, 0xF0F0F0F0), (2, 0xFF00FF00)] []) fun t => (t.gr 0, t.flags)

theorem test_logic_or_and_xor :
    logic (.orGr false .nul 0 false 0 1 2) = some (0xFFF0FFF0, 0b1000#4) ∧
    logic (.andGr false .nul 0 false 0 1 2) = some (0xF000F000, 0b1000#4) ∧
    logic (.xorGr false .nul 0 false 0 1 2) = some (0x0FF00FF0, 0b0000#4) := by decide

theorem test_logic_not :
    logic (.notGr false .nul 0 false 0 1) = some (0x0F0F0F0F, 0b0000#4) ∧
    logic (.copyGr false .nul 0 false 0 1) = some (0xF0F0F0F0, 0b1000#4) := by decide

theorem test_logic_or_complements :
    logic (.notAorB false .nul 0 false 0 1 2) = some (0xFF0FFF0F, 0b1000#4) ∧
    logic (.aOrNotB false .nul 0 false 0 1 2) = some (0xF0FFF0FF, 0b1000#4) ∧
    logic (.notAorNotB false .nul 0 false 0 1 2) = some (0x0FFF0FFF, 0b0000#4) := by decide

theorem test_logic_and_complements :
    logic (.notAandB false .nul 0 false 0 1 2) = some (0x0F000F00, 0b0000#4) ∧
    logic (.aAndNotB false .nul 0 false 0 1 2) = some (0x00F000F0, 0b0000#4) ∧
    logic (.notAandNotB false .nul 0 false 0 1 2) = some (0x000F000F, 0b0000#4) := by decide

theorem test_logic_xor_complements :
    logic (.notAxorB false .nul 0 false 0 1 2) = some (0xF00FF00F, 0b1000#4) ∧
    logic (.aXorNotB false .nul 0 false 0 1 2) = some (0xF00FF00F, 0b1000#4) := by decide

theorem test_logic_constants :
    logic (.setFalse false .nul 0 false 0) = some (0, 0b0100#4) ∧
    logic (.setTrue false .nul 0 false 0) = some (0xFFFFFFFF, 0b1000#4) ∧
    logic (.flagsFalse false .nul 0) = some (0, 0b0100#4) ∧
    logic (.flagsTrue false .nul 0) = some (0, 0b1000#4) := by decide

theorem test_flags_only :
    logic (.testGr false .nul 0 0) = some (0, 0b0100#4) ∧
    logic (.testGr false .nul 0 1) = some (0, 0b1000#4) ∧
    logic (.testNeg false .nul 0 0) = some (0, 0b0100#4) ∧
    logic (.testExpr false .nul 0 .and 0 0) = some (0, 0b0100#4) := by decide

/-! ### Shifts (TV-shift-1, 2) -/

theorem test_shl :
    alu (.shl false .nul 0 0 1 1) 0 0x80000001 0 = some (2, 0b0001#4, false) ∧
    alu (.shl false .nul 0 0 1 31) 0 3 0 = some (0x80000000, 0b1001#4, false) := by decide

theorem test_shr :
    alu (.shr false .nul 0 0 1 24) 0 0x12345678 0 = some (0x12, 0b0000#4, false) ∧
    alu (.shr false .nul 0 0 1 1) 0 1 0 = some (0, 0b0101#4, false) := by decide

theorem test_sar :
    alu (.sar false .nul 0 0 1 5) 0 0x80000010 0 = some (0xFC000000, 0b1001#4, false) ∧
    alu (.sar false .nul 0 0 1 31) 0 0x7FFFFFFF 0 = some (0, 0b0101#4, false) := by decide

theorem test_rol :
    alu (.rol false .nul 0 0 1 6) 0 0x12345678 0 = some (0x8D159E04, 0b1000#4, false) ∧
    alu (.rol false .nul 0 0 1 1) 0 0x80000000 0 = some (1, 0b0001#4, false) := by decide

theorem test_ror :
    alu (.ror false .nul 0 0 1 1) 0 1 0 = some (0x80000000, 0b1001#4, false) ∧
    alu (.ror false .nul 0 0 1 8) 0 0x12345678 0 = some (0x78123456, 0b0000#4, false) := by decide

theorem test_rcl :
    alu (.rcl false .nul 0 0 1) 1 0x80000000 0 = some (1, 0b0001#4, false) ∧
    alu (.rcl false .nul 0 0 1) 0 0x40000000 0 = some (0x80000000, 0b1000#4, false) := by decide

theorem test_rcr :
    alu (.rcr false .nul 0 0 1) 0 1 0 = some (0, 0b0101#4, false) ∧
    alu (.rcr false .nul 0 0 1) 1 0 0 = some (0x80000000, 0b1000#4, false) := by decide

/-- TV-shift-2 -/
theorem test_shift_by_0_and_32 :
    alu (.shr false .nul 0 0 1 0) 9 0x22222222 0 = some (0, 0b1001#4, false) ∧
    alu (.shl false .nul 0 0 1 32) 9 0x22222222 0 = some (0, 0b1001#4, false) := by decide

/-! ### Loads, stores, copies, address modification (TV-mem-1 to 5) -/

/-- The machine of TV-mem-1. -/
def m1 (ar1 gr1 : Word) : State :=
  at' 0 0 [(1, ar1)] [(1, gr1)] [(0x300, 7), (0x301, 8), (0x302, 9), (0x310, 0xA)]

/-- gr0, ar0 and ar1 after a load. -/
def loaded (i : Instr) (s : State) : Option (Word × Word × Word) := got i s fun t => (t.gr 0, t.ar 0, t.ar 1)

theorem test_ldAr : loaded (.ldAr false (.gr 0) 1 .nul) (m1 0x300 0x10) = some (7, 0, 0x300) := by decide
theorem test_ldGr : loaded (.ldGr false (.gr 0) 1 .nul) (m1 0x300 0x302) = some (9, 0, 0x300) := by decide
theorem test_ldArInc : loaded (.ldArInc false (.pair 0) 1 .nul) (m1 0x300 0x10) = some (7, 8, 0x302) := by decide
/-- TV-mem-1: the loaded value wins over the update. -/
theorem test_ldArInc_self : loaded (.ldArInc false (.ar 1) 1 .nul) (m1 0x300 0x10) = some (0, 0, 7) := by decide
theorem test_ldDecAr : loaded (.ldDecAr false (.gr 0) 1 .nul) (m1 0x303 0x10) = some (9, 0, 0x302) := by decide
theorem test_ldDecAr_wide : loaded (.ldDecAr false (.pair 0) 1 .nul) (m1 0x302 0x10) = some (7, 8, 0x300) := by decide
theorem test_ldArIncGr : loaded (.ldArIncGr false (.gr 0) 1 .nul) (m1 0x300 0x10) = some (7, 0, 0x310) := by decide
theorem test_ldArAddGr : loaded (.ldArAddGr false (.gr 0) 1 .nul) (m1 0x300 0x10) = some (0xA, 0, 0x310) := by decide
theorem test_ldArSetGr : loaded (.ldArSetGr false (.gr 0) 1 .nul) (m1 0x300 0x302) = some (9, 0, 0x302) := by decide
theorem test_ldArSetConst : loaded (.ldArSetConst false (.gr 0) 1 0x310 .nul) (m1 0x300 0) = some (0xA, 0, 0x310) := by
  decide
theorem test_ldArAddConst :
    loaded (.ldArAddConst false (.gr 0) 1 false 0x10 .nul) (m1 0x300 0) = some (0xA, 0, 0x310) ∧
    loaded (.ldArAddConst false (.gr 0) 1 true 0xFFFFFFF0 .nul) (m1 0x300 0) = some (0xA, 0, 0x310) := by decide
theorem test_ldConst : loaded (.ldConst false (.gr 0) 0x302 .nul) (m1 0x300 0) = some (9, 0, 0x300) := by decide
/-- TV-mem-3 (a) -/
theorem test_load_odd : refusal (.ldAr false (.pair 0) 1 .nul) (m1 0x301 0) = some .oddLongAddress := by decide
/-- TV-mem-3 (e): the right part reads gr0 before the load; Mem[302h] = 9. -/
theorem test_parts_together :
    got (.ldAr false (.gr 0) 1 (.alu (.std 1) .add 0 0)) ((m1 0x302 0).setGr 0 3) (fun t => (t.gr 0, t.gr 1)) =
      some (9, 6) := by decide
/-- R126, R134: by hand: sb = 2 from memory at 300h gives the odd bits, sb1 bit 0. -/
theorem test_ldVctl :
    got (.ldVctl false (.half .sbl) (.ar 1) 0 .nul) (at' 0 0 [(1, 0x300)] [] [(0x300, 2)]) (fun t => (t.sb1, t.sb2)) =
      some (1, 0) := by decide +kernel

/-- The machine of TV-mem-2. -/
def m2 : State := at' 0 0 [(0, 0xAAAA0000), (1, 0x300)] [(0, 0x0000BBBB), (1, 4)] []

/-- Two words of memory and ar1 after a store. -/
def stored (i : Instr) (a : Word) : Option (Word × Word × Word) := got i m2 fun t => (mem t a, mem t (a + 1), t.ar 1)

theorem test_stAr : stored (.stAr false 1 (.pair 0) .nul) 0x300 = some (0xBBBB, 0xAAAA0000, 0x300) := by decide
theorem test_stArInc : stored (.stArInc false 1 (.pair 0) .nul) 0x300 = some (0xBBBB, 0xAAAA0000, 0x302) := by decide
/-- TV-mem-2: the old value is stored. -/
theorem test_stArInc_self : stored (.stArInc false 1 (.ar 1) .nul) 0x300 = some (0x300, 0, 0x301) := by decide
theorem test_stDecAr : stored (.stDecAr false 1 (.ar 0) .nul) 0x2FF = some (0xAAAA0000, 0, 0x2FF) := by decide
theorem test_stArIncGr : stored (.stArIncGr false 1 (.gr 0) .nul) 0x300 = some (0xBBBB, 0, 0x304) := by decide
theorem test_stArAddGr : stored (.stArAddGr false 1 (.pair 0) .nul) 0x304 = some (0xBBBB, 0xAAAA0000, 0x304) := by decide
theorem test_stArSetGr : stored (.stArSetGr false 1 (.gr 0) .nul) 4 = some (0xBBBB, 0, 4) := by decide
theorem test_stGr : stored (.stGr false 1 (.gr 1) (.shift .shl 1 0 4)) 4 = some (4, 0, 0x300) := by decide
theorem test_stConst : stored (.stConst false (.pair 0) 0x200 .nul) 0x200 = some (0xBBBB, 0xAAAA0000, 0x300) := by decide
/-- R363, by hand. -/
theorem test_stArSetConst : stored (.stArSetConst false 1 (.gr 0) 0x200 .nul) 0x200 = some (0xBBBB, 0, 0x200) := by decide
/-- R364, by hand. -/
theorem test_stArAddConst : stored (.stArAddConst false 1 true (.gr 0) 0x10 .nul) 0x2F0 = some (0xBBBB, 0, 0x2F0) := by
  decide
/-- TV-mem-3 (c): the address register wraps. -/
theorem test_store_wraps :
    got (.stArInc false 1 (.pair 0) .nul) (m2.setAr 1 0xFFFFFFFE)
      (fun t => (mem t 0xFFFFFFFE, mem t 0xFFFFFFFF, t.ar 1)) = some (0xBBBB, 0xAAAA0000, 0) := by decide

/-- The machine of TV-mem-4. -/
def m4 : State := at' 0 0 [(4, 0x9ABCDEF0)] [(4, 0x12345678)] []

theorem test_cpPairGr :
    got (.cpPairGr false 0 4 .nul) m4 (fun t => (t.ar 0, t.gr 0)) = some (0x12345678, 0x12345678) := by decide
theorem test_cpPairPair :
    got (.cpPairPair false 0 4 .nul) m4 (fun t => (t.ar 0, t.gr 0)) = some (0x9ABCDEF0, 0x12345678) := by decide
theorem test_cpVRegGr : got (.cpVRegGr false .f1cr 4 .nul) m4 State.f1cr = some 0x1234567812345678 := by decide
theorem test_cpVRegPair : got (.cpVRegPair false .f1cr 4 .nul) m4 State.f1cr = some 0x9ABCDEF012345678 := by decide
theorem test_cpVHalfGr : got (.cpVHalfGr false .vrh 4 .nul) m4 State.vr = some 0x1234567800000000 := by decide
theorem test_setPair : got (.setPair false 2 5 .nul) m4 (fun t => (t.ar 2, t.gr 2)) = some (5, 5) := by decide
/-- R404, by hand: `gr0 = ar4` and `ar0 = gr4`. -/
theorem test_cp32 :
    got (.cpGrAr false 0 4 .nul) m4 (fun t => t.gr 0) = some 0x9ABCDEF0 ∧
    got (.cpArGr false 0 4 .nul) m4 (fun t => t.ar 0) = some 0x12345678 := by decide
/-- T-src-16: sb = 00020002h in both halves gives sb1 = 01010101h. -/
theorem test_setVReg_sb : got (.setVReg false .sb 0x00020002 .nul) State.reset State.sb1 = some 0x01010101 := by
  decide +kernel
/-- The low half of a word extended to 64 bits is the word. -/
theorem lo_setWidth (w : Word) : Long.lo (w.setWidth 64) = w := by
  apply BitVec.eq_of_getLsbD_eq
  intro i hi
  simp [Long.lo, hi, show i < 64 by omega]

/-- TV-pswr-4: the bits of intr after reset that are defined, 4E001400h without bits 22:13. -/
theorem test_cpGrSpec_intr :
    got (.cpGrSpec false 0 .intr .nul) State.reset (fun t => t.gr 0) = some State.reset.intr ∧
    ∀ n < 32, ¬ (13 ≤ n ∧ n ≤ 22) → State.reset.intr.getLsbD n = (0x4E001400#32).getLsbD n := by
  refine ⟨?_, ?_⟩
  · exact (show _ = some (Long.lo (State.reset.intr.setWidth 64)) from rfl).trans (by rw [lo_setWidth])
  · intro n hn hx
    simp only [State.intr, BitVec.getLsbD_append]
    interval_cases n <;> first | omega | rfl

/-- The machine of TV-mem-5. -/
def m5 : State := at' 0 9 [(2, 0x100), (4, 0xFFFFFFFF)] [(2, 0xFFFFFFFE)] []

theorem test_amAddGr : got (.amAddGr false 0 2 .nul) m5 (fun t => (t.ar 0, t.flags)) = some (0xFE, 9) := by decide
theorem test_amIncGr : got (.amIncGr false 2 false .nul) m5 (fun t => t.ar 2) = some 0xFE := by decide
theorem test_amAddConst :
    got (.amAddConst false 0 2 false 8 .nul) m5 (fun t => (t.ar 0, t.ipc)) = some (0x108, 2) := by decide
theorem test_amInc : got (.amInc false 4 .nul) m5 (fun t => t.ar 4) = some 0 := by decide
theorem test_amDec : got (.amDec false 5 .nul) m5 (fun t => t.ar 5) = some 0xFFFFFFFF := by decide

/-! ### Stack and pswr (TV-stack-1, 2, TV-pswr-1 to 3) -/

/-- The machine of TV-stack-1 with another sp. -/
def k1 (sp : Word) : State :=
  at' 0 0 [(0, 0xA), (1, 0xC), (7, sp)] [(0, 0xB)] [(0x1002, 0xC), (0x1003, 0x1003)]

theorem test_pushPair :
    got (.pushPair false 0 .nul) (k1 0x1000) (fun t => (mem t 0x1000, mem t 0x1001, t.sp)) =
      some (0xB, 0xA, 0x1002) := by decide
theorem test_pushAr_sp :
    got (.pushAr false 7 .nul) (k1 0x1003) (fun t => (mem t 0x1003, t.sp)) = some (0x1003, 0x1004) := by decide
theorem test_popGr : got (.popGr false 5 .nul) (k1 0x1004) (fun t => (t.gr 5, t.sp)) = some (0x1003, 0x1003) := by decide
theorem test_popDrop : got (.popDrop false .nul) (k1 0x1002) State.sp = some 0x1000 := by decide
theorem test_popAr_sp :
    got (.popAr false 7 .nul) (at' 0 0 [(7, 0x1001)] [] [(0x1000, 0x2000)]) State.sp = some 0x2000 := by decide
theorem test_push_odd : refusal (.pushPair false 0 .nul) (k1 0x1001) = some .oddLongAddress := by decide
/-- TV-stack-2: bits 25:20 keep their value, and bits 15 and 14 empty the buffers. -/
theorem test_pop_pswr :
    got (.stackOther false true (.special (.one .pswr)) .nul)
      { at' 0 0 [(7, 0x1001)] [] [(0x1000, 0xFFFFFFFF)] with afifo := [1], wfifo := [2] }
      (fun t => (t.pswr, t.afifo, t.wfifo)) = some (0xFC0FFFFF, [], []) := by decide

theorem test_pswrSet : got (.pswrSet false 0x400000 .nul) State.reset State.pswr = some 0x00400000 := by decide
theorem test_pswrClear :
    got (.pswrClear false 0x1000000 .nul) (at' 0 0x01000008 [] [] []) State.pswr = some 0x00000008 := by decide
/-- TV-pswr-3 -/
theorem test_pswrSet_after_right :
    got (.pswrSet false 8 (.alu (.std 1) .inc 1 0)) (at' 0 0 [] [(1, 0xFFFFFFFF)] []) State.pswr = some 0xD := by decide
/-- TV-pswr-2 -/
theorem test_cpSpecPrim_pswr :
    got (.cpSpecPrim false (.one .pswr) (.gr 0) .nul) (at' 0 0x00400000 [] [(0, 0xFFFFFFFF)] []) State.pswr =
      some 0xFC4FFFFF := by decide

/-! ### Control transfers (TV-call-1 to 3, TV-xfer-1, 2, 5, 6, TV-cond-3) -/

theorem test_callK :
    got (.callK false .always false 0x300 (.alu (.std 1) .inc 1 0)) (at' 0x100 8 [(7, 0x1000)] [(1, 0xFFFFFFFF)] [])
      (fun t => (mem t 0x1000, mem t 0x1001, t.sp, t.ipc)) = some (0x102, 5, 0x1002, 0x300) := by decide
theorem test_callrelGr :
    got (.callrelGr false .always false 0 .nul) (at' 0x101 0 [(7, 0x1000)] [(0, 0x10)] [])
      (fun t => (mem t 0x1000, t.ipc)) = some (0x102, 0x112) := by decide
theorem test_callArGr :
    got (.callArGr false .always false 0 .nul) (at' 0x101 0 [(0, 0x400), (7, 0x1000)] [(0, 0xFFFFFFFF)] []) State.ipc =
      some 0x3FF := by decide
theorem test_call_not_taken :
    got (.callK false .lt false 0x300 .nul) (at' 0x100 0 [(7, 0x1000)] [] []) (fun t => (t.sp, t.ipc)) =
      some (0x1000, 0x102) := by decide
theorem test_ret :
    got (.ret false .always false .nul) (at' 0x300 0xA [(7, 0x1002)] [] [(0x1000, 0x102), (0x1001, 5)])
      (fun t => (t.sp, t.ipc, t.pswr)) = some (0x1000, 0x102, 0xA) := by decide
theorem test_iret :
    got (.iret false .always false .nul) (at' 0x300 0xA [(7, 0x1002)] [] [(0x1000, 0x102), (0x1001, 5)])
      (fun t => (t.sp, t.ipc, t.pswr)) = some (0x1000, 0x102, 5) := by decide
/-- TV-call-3 -/
theorem test_iret_protected :
    got (.iret false .always false .nul)
      (at' 0x300 0x00400000 [(7, 0x1002)] [] [(0x1000, 0x140), (0x1001, 0xFFFFFFFF)])
      (fun t => (t.ipc, t.pswr)) = some (0x140, 0xFC4FFFFF) := by decide
theorem test_skipK : got (.skipK false .always false 0xFFFFFFEE .nul) (at' 0x100 0 [] [] []) State.ipc = some 0xF0 := by
  decide
theorem test_gotoArK :
    got (.gotoArK false .always false 1 false 8 .nul) (at' 0x100 0 [(1, 0x200)] [] []) State.ipc = some 0x208 := by decide
theorem test_skipGr :
    got (.skipGr false .always false 0 .nul) (at' 0x101 0 [] [(0, 0xFFFFFFFF)] []) State.ipc = some 0x101 := by decide
/-- TV-cond-3: the condition is that of the flags before the instruction. -/
theorem test_goto_condition :
    got (.gotoK false .eq0 false 0x200 (.alu (.std 1) .dec 1 0)) (at' 0x100 4 [] [(1, 5)] [])
      (fun t => (t.gr 1, t.flags, t.ipc)) = some (4, 0, 0x200) ∧
    got (.gotoK false .eq0 false 0x200 (.alu (.std 1) .dec 1 0)) (at' 0x100 0 [] [(1, 5)] []) State.ipc = some 0x102 := by
  decide
/-- TV-xfer-2: the delayed branch, and the delayed instruction with which it jumps. -/
theorem test_delayed_goto :
    got (.gotoK false .always true 0x200 .nul) (at' 0x100 0 [] [] []) (fun t => (t.ipc, t.pending)) =
      some (0x102, some ⟨true, .jump, 0x200, 1⟩) ∧
    got (.inc false .nul 0 false 1 1) { at' 0x102 0 [] [] [] with pending := some ⟨true, .jump, 0x200, 1⟩ }
      (fun t => (t.ipc, t.pending, t.gr 1)) = some (0x200, none, 1) := by decide
/-- TV-xfer-5: the frame of a delayed call holds pswr after the delayed instruction. -/
theorem test_delayed_call :
    got (.copyGr false .nul 0 false 7 1)
      { at' 0x102 0 [(7, 0x1000)] [] [] with pending := some ⟨true, .call, 0x300, 1⟩ }
      (fun t => (mem t 0x1000, mem t 0x1001, t.sp, t.ipc)) = some (0x103, 4, 0x1002, 0x300) := by decide
/-- R475: DelaySlots is that of the instruction, its address and the lengths after it (here three zero words). -/
theorem test_delay_slots :
    let s (pc : Word) : State := { at' pc 0 [] [] [] with params := { Config.Params.default with
      delaySlots := [(⟨(Instr.gotoGr false .always true 1 .nul).code, 0x101, [1, 1, 1]⟩, 2)] } }
    got (.gotoGr false .always true 1 .nul) (s 0x101) (fun t => t.pending.map Pending.n) = some (some 3) ∧
    got (.gotoGr false .always true 1 .nul) (s 0x103) (fun t => t.pending.map Pending.n) = some (some 1) ∧
    got (.gotoGr false .always true 2 .nul) (s 0x101) (fun t => t.pending.map Pending.n) = some (some 1) :=
  ⟨rfl, rfl, rfl⟩
/-- TV-xfer-6 -/
theorem test_transfer_in_window :
    refusal (.gotoK false .always false 0x300 .nul)
      { at' 0x102 0 [] [] [] with pending := some ⟨true, .jump, 0x200, 1⟩ } = some .transferInDelayWindow ∧
    got (.gotoK false .eq0 false 0x300 .nul) { at' 0x102 0 [] [] [] with pending := some ⟨true, .jump, 0x200, 1⟩ }
      State.ipc = some 0x200 := by decide

/-- Two rows of TV-cond-1: NZVC = 1001 and NZVC = 0010. -/
theorem test_conditions :
    [Cond.eq0, .ne0, .gt, .lt, .ge, .le, .uge, .ult, .vtrue, .vfalse, .vgt, .vlt, .vge, .vle].map
      (fun c => (c.holds (at' 0 9 [] [] []), c.holds (at' 0 2 [] [] []))) =
    [(false, false), (true, true), (false, true), (true, false), (false, true), (true, false), (false, true),
      (true, false), (false, true), (true, false), (false, false), (true, true), (false, false), (true, true)] := by
  decide

/-! ### Vector instructions: addresses, checks, weights (TV-vaddr-1, TV-vpr-1, TV-stuck-1, TV-fcl-1) -/

/-- No command on the left. -/
def noLeft : VLeft := ⟨.none, false, false⟩

/-- The four addresses of TV-vaddr-1 (ar0 = 1000h, gr0 = 20h) and ar0 after the instruction. -/
def addresses (m : VMode) : List Word × Option Word :=
  ((List.range 4).map (fun k => m.ea k (at' 0 0 [(0, 0x1000)] [(0, 0x20)] [])),
    got (.vLdRam false 3 m false false .none) (at' 0 0 [(0, 0x1000)] [(0, 0x20)] []) fun t => t.ar 0)

theorem test_vaddr :
    addresses (.ar 0) = ([0x1000, 0x1000, 0x1000, 0x1000], some 0x1000) ∧
    addresses (.gr 0) = ([0x20, 0x20, 0x20, 0x20], some 0x1000) ∧
    addresses (.arSetGr 0) = ([0x20, 0x20, 0x20, 0x20], some 0x20) ∧
    addresses (.arInc 0) = ([0x1000, 0x1002, 0x1004, 0x1006], some 0x1008) := by decide

theorem test_vaddr_steps :
    addresses (.decAr 0) = ([0xFFE, 0xFFC, 0xFFA, 0xFF8], some 0xFF8) ∧
    addresses (.arIncGr 0) = ([0x1000, 0x1020, 0x1040, 0x1060], some 0x1080) ∧
    addresses (.arAddGr 0) = ([0x1020, 0x1040, 0x1060, 0x1080], some 0x1080) := by decide

/-- TV-vaddr-2 -/
theorem test_vaddr_odd :
    refusal (.vLdArInc false 3 .data 0 false false .none) (at' 0 0 [(0, 0x1001)] [] []) = some .oddVectorAddress ∧
    refusal (.vLdArIncGr false 3 .data 0 false false .none) (at' 0 0 [(0, 0x1000)] [(0, 0x21)] []) =
      some .oddVectorAddress := by decide

/-- TV-vaddr-2: all words go to one address, the last remains. -/
theorem test_vStArIncGr_same_address :
    got (.vStArIncGr false 1 0 false false .none) { at' 0 0 [(0, 0x1000)] [] [] with afifo := [0xB0000000A, 0xD0000000C] }
      (fun t => (mem t 0x1000, mem t 0x1001, t.afifo)) = some (0xC, 0xD, []) := by decide

/-- TV-vaddr-3: `rep 2 data = [ar0++] with data;` -/
theorem test_vOr_data :
    got (.vOr false 1 ⟨.load .data (.arInc 0), false, false⟩ (.buf .data) .null)
      (at' 0 0 [(0, 0x1000)] [] [(0x1000, 0x11111111), (0x1001, 0x11111111), (0x1002, 0x22222222), (0x1003, 0x22222222)])
      (fun t => (t.afifo, t.ar 0)) = some ([0x1111111111111111, 0x2222222222222222], 0x1004) := by decide

/-- TV-vaddr-3: `rep 2 [--ar1] = afifo;` -/
theorem test_vStDecAr :
    got (.vStDecAr false 1 1 false false .none) { at' 0 0 [(1, 0x2000)] [] [] with afifo := [0xB0000000A, 0xD0000000C] }
      (fun t => (mem t 0x1FFE, mem t 0x1FFF, mem t 0x1FFC, t.ar 1)) = some (0xA, 0xB, 0xC, 0x1FFC) := by decide

/-- `n` words in a buffer. -/
def some' (n : Nat) : List Long := List.replicate n 5

/-- A machine with words in afifo and ram. -/
def bufs (a r : Nat) : State := { at' 0 0 [] [] [] with afifo := some' a, ram := some' r }

/-- Whether an instruction is treated as incorrect: VPR is requested. -/
def vpr (i : Instr) (s : State) : Option Bool := got i s fun t => t.ireq.getLsbD 6

theorem test_vpr_data_afifo :
    vpr (.vInc false 7 noLeft (.buf .data)) (bufs 0 0) = some true ∧
    vpr (.vStArInc false 7 0 false false .none) (bufs 0 0) = some true ∧
    vpr (.vStArInc false 3 0 false false .none) (bufs 8 0) = some true ∧
    vpr (.vOr false 7 ⟨.load .data (.arInc 0), false, false⟩ (.buf .data) .null) (bufs 8 0) = some true := by
  decide +kernel

theorem test_vpr_ram :
    vpr (.vInc false 7 noLeft (.buf .ram)) (bufs 0 0) = some true ∧
    vpr (.vInc false 7 noLeft (.buf .ram)) (bufs 0 16) = some true ∧
    vpr (.vInc false 7 ⟨.load .ram (.arInc 0), false, false⟩ (.buf .ram)) (bufs 0 8) = some true ∧
    vpr (.vNot false 7 ⟨.store (.arInc 0) true, false, false⟩ (.buf .ram)) (bufs 8 8) = some true := by decide +kernel

/-- TV-vpr-1: the correct rows; the old afifo is stored, the new one is 8 words of ones. -/
theorem test_vpr_legal :
    got (.vTrue false 7 ⟨.store (.arInc 1) false, false, false⟩) (bufs 8 0) (fun t => (t.afifo, mem t 0xE, t.ireq)) =
      some (List.replicate 8 0xFFFFFFFFFFFFFFFF, 5, 0) ∧
    vpr (.vAdd false 7 ⟨.load .data (.arInc 0), false, false⟩ (.buf .data) (.buf .afifo)) (bufs 8 0) = some false ∧
    got (.vLdRam false 7 (.arInc 0) false false .none) (bufs 8 0) (fun t => (t.ram.length, t.afifo)) =
      some (8, some' 8) := by decide +kernel

/-- The state of TV-stuck-1 with `n` words in wfifo. -/
def weights (n : Nat) : State := { at' 0 0 [] [] [] with wfifo := some' n, sb1 := 0x11111111 }

theorem test_ftw :
    got (.ftw false) (weights 7) State.stuck = some true ∧
    got (.ftw false) (weights 8) (fun t => (t.stuck, t.ws, t.wfifo)) = some (false, some' 8, []) := by decide +kernel

theorem test_wfifoLdFtw :
    got (.wfifoLdFtw false 3 (.arInc 0) .none) (weights 4) (fun t => (t.stuck, t.ws, t.wfifo)) =
      some (false, some' 4 ++ [0, 0, 0, 0], []) ∧
    got (.wfifoLdFtw false 1 (.arInc 0) .none) (weights 4) State.stuck = some true := by decide +kernel

theorem test_wfifoLd_full :
    got (.wfifoLd false 0 (.arInc 0) .none) (weights 32) State.stuck = some true ∧
    got (.wfifoLd false 15 (.arInc 0) .none) (weights 16) (fun t => (t.stuck, t.wfifo.length)) = some (false, 32) ∧
    got (.wfifoLdFtw false 7 (.arInc 0) .none) (weights 32) (fun t => (t.stuck, t.wfifo.length)) = some (false, 32) ∧
    got (.wfifoLdFtw false 8 (.arInc 0) .none) (weights 32) State.stuck = some true := by decide +kernel

/-- R685: `wtw` moves nb1, sb1 and the Shadow Matrix; by hand. -/
theorem test_wtw :
    got (.wtw false none) { weights 0 with nb1 := 7, ws := [3, 4] } (fun t => (t.nb2, t.sb2, t.wa)) =
      some (7, 0x11111111, [3, 4]) := by decide

/-- TV-fcl-1 -/
theorem test_fifo_clear :
    got (.pswrSet false 0x4000 .nul) { bufs 8 0 with wfifo := some' 12 } (fun t => (t.afifo, t.wfifo)) =
      some ([], some' 12) ∧
    got (.vOr false 7 ⟨.load .data (.arInc 0), false, false⟩ (.buf .data) .null) (at' 0 0x4000 [] [] [])
      (fun t => (t.afifo, t.ar 0)) = some ([], 16) := by decide +kernel

/-- R631, by hand: the last delayed instruction of a delayed `ireturn` runs with bit 14 set; its own step 9 empties
afifo, whatever pswr is restored. -/
theorem test_fifo_clear_before_ireturn :
    got (.vOr false 0 ⟨.load .data (.arInc 0), false, false⟩ (.buf .data) .null)
      { at' 0x102 0x4000 [(7, 0x1002)] [] [(0x1000, 0x140)] with pending := some ⟨true, .iret, 0, 1⟩ }
      (fun t => (t.afifo, t.pswr, t.ipc)) = some ([], 0, 0x140) := by decide +kernel

/-! ### The Vector Unit's arithmetic (TV-valu, TV-mask, TV-act, TV-vsum, TV-vregs) -/

/-- The result of an operation on X in afifo and Y in ram, with one repetition. -/
def v1 (s : State) (i : Instr) (x y : Long) : Option (List Long) :=
  got i { s with afifo := [x], ram := [y] } State.afifo

/-- The state with nb2 set. -/
def split' (nb : Long) : State := { State.reset with nb2 := nb }

theorem test_vAdd :
    v1 (split' 0x8080808080808080) (.vAdd false 0 noLeft (.buf .afifo) (.buf .ram)) 0x018080F002FFFF01
      0xFE20801F0201FF01 = some [0xFFA0000F0400FE02] ∧
    v1 (split' 0) (.vAdd false 0 noLeft (.buf .afifo) (.buf .ram)) 0x00000000FFFFFFFF 1 = some [0x0000000100000000] := by
  decide +kernel

theorem test_vSub :
    v1 (split' 0x8000800080008000) (.vSub false 0 noLeft (.buf .afifo) (.buf .ram)) 0x0000000100008000
      0x0001000200018001 = some [0xFFFFFFFFFFFFFFFF] := by decide +kernel

theorem test_vInc_vDec :
    v1 (split' 0x8080808080808080) (.vInc false 0 noLeft (.buf .afifo)) 0x00FF7F80010203FE 0 =
      some [0x01008081020304FF] ∧
    v1 (split' 0x8080808080808080) (.vDec false 0 noLeft (.buf .afifo)) 0x00FF7F80010203FE 0 =
      some [0xFFFE7E7F000102FD] := by decide +kernel

/-- TV-valu-1: `0 - Y`, `0 + 1` and `0 - 1`; the last two read no buffer, so afifo is empty before them. -/
theorem test_vNegY_vOne :
    v1 (split' 0x8080808080808080) (.vNegY false 0 noLeft (.buf .afifo)) 0x00FF7F80010203FE 0 =
      some [0x00018180FFFEFD02] ∧
    got (.vOne false 0 noLeft) (split' 0x8000000080008000) State.afifo = some [0x0000000100010001] ∧
    got (.vMinusOne false 0 noLeft) (split' 0x8000000080008000) State.afifo = some [0xFFFFFFFFFFFFFFFF] := by
  decide +kernel

/-- A logical operation on the operands of TV-valu-2. -/
def vlogic (i : Instr) : Option (List Long) := v1 State.reset i 0xF0F0F0F0F0F0F0F0 0xFF00FF00FF00FF00

theorem test_vlogic :
    vlogic (.vOr false 0 noLeft (.buf .afifo) (.buf .ram)) = some [0xFFF0FFF0FFF0FFF0] ∧
    vlogic (.vAnd false 0 noLeft (.buf .afifo) (.buf .ram)) = some [0xF000F000F000F000] ∧
    vlogic (.vXor false 0 noLeft (.buf .afifo) (.buf .ram)) = some [0x0FF00FF00FF00FF0] ∧
    vlogic (.vNot false 0 noLeft (.buf .afifo)) = some [0x0F0F0F0F0F0F0F0F] := by decide +kernel

theorem test_vlogic_or_complements :
    vlogic (.vNotOr false 0 noLeft (.buf .afifo) (.buf .ram)) = some [0xFF0FFF0FFF0FFF0F] ∧
    vlogic (.vOrNot false 0 noLeft (.buf .afifo) (.buf .ram)) = some [0xF0FFF0FFF0FFF0FF] ∧
    vlogic (.vNotOrNot false 0 noLeft (.buf .afifo) (.buf .ram)) = some [0x0FFF0FFF0FFF0FFF] := by decide +kernel

theorem test_vlogic_and_complements :
    vlogic (.vNotAnd false 0 noLeft (.buf .afifo) (.buf .ram)) = some [0x0F000F000F000F00] ∧
    vlogic (.vAndNot false 0 noLeft (.buf .afifo) (.buf .ram)) = some [0x00F000F000F000F0] ∧
    vlogic (.vNotAndNot false 0 noLeft (.buf .afifo) (.buf .ram)) = some [0x000F000F000F000F] ∧
    vlogic (.vNotXor false 0 noLeft (.buf .afifo) (.buf .ram)) = some [0xF00FF00FF00FF00F] := by decide +kernel

/-- A mask operation with the mask in afifo, X in ram, and Y the one long word read from memory as data. -/
def masked (i : Instr) (m x : Long) (y : Long) : Option (List Long) :=
  got i { at' 0 0 [] [] [(0, y.lo), (1, y.hi)] with afifo := [m], ram := [x] } State.afifo

theorem test_vMask :
    masked (.vMask false 0 ⟨.load .data (.ar 0), false, false⟩ .afifo (.buf .ram) (.buf .data)) 0xFF00FFFF0000FF00
      0x1716151413121110 0x2726252423222120 = some [0x1726151423221120] := by decide +kernel

theorem test_vMaskShift :
    masked (.vMaskShift false 0 ⟨.load .data (.ar 0), false, false⟩ .afifo (.buf .ram) (.buf .data)) 0xFF00FFFF0000FF00
      0x1716151413121110 0x2726252423222120 = some [0x0BA60A8A232208A0] := by decide +kernel

/-- TV-act-1 -/
theorem test_saturate_threshold :
    saturate 0xE0E0E0E0E0E0E0E0 0x16F656D67F80201F = 0x16F61FE01FE01F1F ∧
    threshold 0xE0E0E0E0E0E0E0E0 0x16F656D67F80201F = 0x00FF00FF00FF0000 ∧
    saturate 0xFF00FF00FF00FF00 0x012CFED400FFFF00 = 0x00FFFF0000FFFF00 ∧
    saturate 0 0x8000000000000000 = 0x8000000000000000 := by decide +kernel

/-- The state of TV-act-2. -/
def act : State := { split' 0x8080808080808080 with f1cr := 0xE0E0E0E0E0E0E0E0, f2cr := 0xE0E0E0E0E0E0E0E0 }

theorem test_activate :
    v1 act (.vAnyActivated false 0 noLeft (.arith false ⟨true, .buf .afifo⟩ ⟨false, .one⟩)) 0x16F656D67F80201F 0 =
      some [0x17F720E120E12020] ∧
    v1 act (.vActXOr false 0 noLeft (.buf .afifo) (.buf .ram)) 0x16F656D67F80201F 0x0100010001000100 =
      some [0x01FF01FF01FF0100] ∧
    v1 act (.vOrActY false 0 noLeft (.buf .ram) (.buf .afifo)) 0x16F656D67F80201F 0 = some [0x00FF00FF00FF0000] ∧
    v1 act (.vSubActY false 0 noLeft (.buf .ram) (.buf .afifo)) 0x16F656D67F80201F 0x2020202020202020 =
      some [0x0A2A014001400101] := by decide +kernel

/-- R771 to R776, worked from TV-act-1: Threshold of D is 00FF00FF00FF0000h. -/
theorem test_activate_logic :
    v1 act (.vNotActXAnd false 0 noLeft (.buf .afifo) (.buf .ram)) 0x16F656D67F80201F 0xFFFFFFFFFFFFFFFF =
      some [0xFF00FF00FF00FFFF] ∧
    v1 act (.vAndNotActY false 0 noLeft (.buf .ram) (.buf .afifo)) 0x16F656D67F80201F 0xFFFFFFFFFFFFFFFF =
      some [0xFF00FF00FF00FFFF] ∧
    v1 act (.vActXXorActY false 0 noLeft (.buf .afifo) (.buf .afifo)) 0x16F656D67F80201F 0 = some [0] ∧
    v1 act (.vNotActXAndNotActY false 0 noLeft (.buf .afifo) (.buf .afifo)) 0x16F656D67F80201F 0 =
      some [0xFF00FF00FF00FFFF] := by decide +kernel

/-- TV-act-2, the mask; before it, by hand, the same with f1cr = 0: X is one positive element, Threshold gives 0. -/
theorem test_vMaskActX :
    masked (.vMaskActX false 0 ⟨.load .data (.ar 0), false, false⟩ .afifo (.buf .ram) (.buf .data)) 0xFFFFFFFF00000000
      0x16F656D67F80201F 0x00000000AAAAAAAA = some [0xAAAAAAAA] ∧
    got (.vMaskActX false 0 ⟨.load .data (.ar 0), false, false⟩ .afifo (.buf .ram) (.buf .data))
      { act with afifo := [0xFFFFFFFF00000000], ram := [0x16F656D67F80201F], mem := Memory.setWord [] 0 0xAAAAAAAA }
      State.afifo = some [0x00FF00FFAAAAAAAA] := by decide +kernel

/-- The matrix of T-src-6 (T-src-6 and program P3) and the splits of TV-vsum-1. -/
def vs1 : State :=
  { split' 0x8080808080808080 with sb2 := 0x11111111, f1cr := 0xE0E0E0E0E0E0E0E0, wa :=
    [0x0101010101010101, 0xFF01FF01FF01FF01, 0xFFFF0101FFFF0101, 0x01FFFF0101FFFF01, 0xFFFFFFFF01010101, 0x01FF01FFFF01FF01,
      0x0101FFFFFFFF0101, 0xFF0101FF01FFFF01] }

theorem test_vSum0 :
    v1 vs1 (.vSum0 false 0 noLeft (.buf .afifo)) 0x0807060504030201 0 = some [0x000000F000F8FC24] ∧
    v1 vs1 (.vSum0 false 0 noLeft (.buf .afifo)) 0xFF00000000000000 0 = some [0x01FFFF01FF0101FF] := by decide +kernel

/-- TV-vsum-2 -/
theorem test_vSumY :
    v1 vs1 (.vSumY false 0 noLeft (.buf .afifo) (.buf .ram)) 0x0807060504030201 0x0101010101010101 =
      some [0x010101F101F9FD25] := by decide +kernel

/-- TV-vsum-3 -/
theorem test_vSumShift :
    v1 vs1 (.vSumShift false 0 noLeft none (.buf .afifo) .null) 1 0 = some [0x8080808080808080] := by decide +kernel

/-- TV-vsum-3 -/
theorem test_vSumActX :
    v1 vs1 (.vSumActX false 0 noLeft (.buf .afifo) .null) 0xD6 0 = some [0xE0E0E0E0E0E0E0E0] := by decide +kernel

/-- TV-vsum-4 -/
theorem test_vsum_two_rows :
    v1 { split' 0x8000000080000000 with sb2 := 0x00010001, wa := [0x0000000200000003, 0xFFFFFFFF00000005] }
      (.vSumY false 0 noLeft (.buf .afifo) (.buf .ram)) 0x00000004FFFFFFFE 0x0000000A00000064 =
      some [0x0000000200000072] := by decide +kernel

/-- TV-vsum-7 -/
theorem test_vsum_mismatch :
    refusal (.vSum0 false 0 noLeft (.buf .afifo)) { vs1 with sb2 := 0x01010101, afifo := [0] } =
      some .rowCountMismatch := by decide +kernel

/-- TV-vregs-1 -/
theorem test_storeVregs :
    got (.storeVregs false 4 noLeft)
      { split' 0x8000800080008000 with
        f1cr := 0x8080808080808080
        f2cr := 0xE0E0E0E0E0E0E0E0
        sb1 := 0x01010101
        sb2 := 0x11111111
        vr := 0x0123456789ABCDEF }
      State.afifo =
      some [0xE0E0E0E0E0E0E0E0, 0x8080808080808080, 0x8000800080008000, 0x0103010301030103, 0x0123456789ABCDEF] := by
  decide +kernel

/-! ### Timers, ports, interrupts (TV-timer-1 to 4, TV-port-1 to 4, TV-int-1 to 4) -/

/-- The state of TV-timer-2 with a count, whether it has stopped, and a mode; one clock. -/
def clock (c : Word) (st : Bool) (ps : Word) : Option (Word × Bool × BitVec 9) :=
  stepped { at' 0 ps [] [] [] with timer1 := ⟨c, 0xFFFFFFFE, st⟩, inputs := [.timerClock] }
    fun t => (t.timer1.count, t.timer1.stopped, t.ireq)

theorem test_timer_single :
    clock 0xFFFFFFFE false 0x10000 = some (0xFFFFFFFF, false, 0) ∧
    clock 0xFFFFFFFF false 0x10000 = some (0, true, 1) ∧
    clock 0 true 0x10000 = some (0, true, 0) := by decide

theorem test_timer_loop_and_held :
    clock 0xFFFFFFFF false 0x20000 = some (0xFFFFFFFE, false, 1) ∧ clock 5 false 0 = some (5, false, 0) := by decide

/-- TV-port-1: the second output step. -/
theorem test_dma_output :
    stepped
      { at' 0 0 [] [] [(0x702, 0x44444444), (0x703, 0x33333333)] with
        port0 := { Port.atReset .output with oca := 0x702, occ := 0xFFFFFFFF, outQ := [0x1111111122222222] }
        inputs := [.dmaOut .u0] }
      (fun t => (t.port0.outQ, t.port0.oca, t.port0.occ, t.ireq)) =
      some ([0x1111111122222222, 0x3333333344444444], 0x704, 0, 0b10) := by decide

/-- The state of TV-port-2, in which the peer's word has been offered. -/
def p2 (ps : Word) : State :=
  { at' 0 ps [] [] [] with
    port1 := { Port.atReset .input with ica := 0x800, icc := 0xFFFFFFFF, inQ := [0xAABBCCDD00112233] }
    inputs := [.dmaIn .u1] }

/-- TV-port-2 -/
theorem test_dma_input :
    stepped (p2 0) (fun t => (mem t 0x800, mem t 0x801, t.port1.ica, t.port1.icc, t.ireq)) =
      some (0x00112233, 0xAABBCCDD, 0x802, 0, 0b10000) := by decide

/-- TV-port-4: the port is frozen; the word waits. -/
theorem test_dma_freeze :
    stepped (p2 0x1000000) (fun t => (t.port1.inQ, t.port1.icc, t.ireq)) =
      some ([0xAABBCCDD00112233], 0xFFFFFFFF, 0) := by decide

/-- TV-port-3: the initialisation word. -/
theorem test_dma_external :
    stepped
      { at' 0 0x400000 [] [] [] with
        port0 := { Port.atReset .input with inQ := [0xFFFFFFFE00000900] }
        inputs := [.dmaIn .u0] }
      (fun t => (t.port0.ica, t.port0.icc, t.port0.inQ, t.mem)) = some (0x900, 0xFFFFFFFE, [], []) := by decide

/-- R108, by hand: a counter set to 0 ends the transfer that has started; another value does not. -/
theorem test_counter_written :
    let s : State := { at' 0 0 [] [] [] with
      port0 := { Port.atReset .output with icc := 0xFFFFFFFE, moving := some .input } }
    got (.setSpec false (.one .icc0) 0 .nul) s (fun t => (t.port0.icc, t.port0.moving)) = some (0, none) ∧
    got (.setSpec false (.one .icc0) 7 .nul) s (fun t => (t.port0.icc, t.port0.moving)) = some (7, some .input) ∧
    got (.setSpec false (.one .occ0) 0 .nul) s (fun t => (t.port0.occ, t.port0.moving)) = some (0, some .input) := by
  decide

/-- R73, by hand: a counter set up and written 0 again was DMA activity; a counter written 0 only was none. -/
theorem test_dma_seen :
    ((got (.setSpec false (.one .icc0) 7 .nul) State.reset id).bind fun t =>
      got (.setSpec false (.one .icc0) 0 .nul) t fun u => (u.port0.icc, u.dmaSeen)) = some (0, true) ∧
    got (.setSpec false (.two .occ1oca1) 0 .nul) State.reset State.dmaSeen = some false := by decide

/-- TV-int-2 -/
theorem test_interrupt_entry :
    stepped { at' 0x150 9 [(7, 0x3000)] [] [] with ireq := 1 }
      (fun t => (mem t 0x3000, mem t 0x3001, t.sp, t.ireq, t.pswr)) = some (0x150, 9, 0x3002, 0, 0x3FE9) ∧
    stepped { at' 0x150 9 [(7, 0x3000)] [] [] with ireq := 1 } State.ipc = some (Config.intVector 0) :=
  ⟨by decide, rfl⟩

/-- TV-int-1: priority, and masking. -/
theorem test_interrupt_priority :
    stepped { at' 0 0 [] [] [] with ireq := 0b010000001 } State.ireq = some 0b000000001 ∧
    stepped { at' 0 0x1000 [] [] [] with ireq := 0b010000001 } State.ireq = some 0b010000000 := by decide

/-- TV-int-3, TV-int-4: not taken while a transfer is pending, while blocked, or while masked. -/
theorem test_interrupt_not_taken :
    State.interruptNow { at' 0 0 [] [] [] with ireq := 1, pending := some ⟨true, .jump, 0x200, 1⟩ } = none ∧
    stepped { at' 0 0 [] [] [] with ireq := 1, stuck := true } State.ireq = some 1 ∧
    State.interruptNow { at' 0 0x20 [] [] [] with ireq := 1 } = none := by decide

/-! ### Witnesses: states and operands that meet the hypotheses of each statement -/

/-- What `leftRow` assumes. -/
abbrev LeftMet (i : Instr) (s : State) : Prop :=
  i.wellFormed = true ∧ (i.code.low.long = true → s.ipc.odd = false) ∧ s.pending = none

/-- What `rightRow` assumes, beside an empty left part. -/
abbrev RightMet (i : Instr) (s : State) : Prop := i.wellFormed = true ∧ s.pending = none

/-- An empty left part is always ready. -/
theorem leftReady_nul (s : State) : leftReady .nul 0 s := ⟨fun h => absurd h (by decide), trivial⟩

/-- A state of the witnesses: at an even address, sp and ar1 even. -/
def w0 : State := at' 0x100 0 [(1, 0x300), (7, 0x1000)] [(1, 0x10)] []

/-- The same with a pending transfer. -/
def wp (n : Nat) (taken : Bool) (kind : XferKind) : State := { w0 with pending := some ⟨taken, kind, 0x200, n⟩ }

theorem witness_DecodeParameter :
    (∃ w, decode w 7 = .ok (.nulK false 7 .nul)) ∧ (Instr.nulK false 7 .nul).code.low.long = true ∧
      Low.wellFormed (.scalar false .nulC .nul) = true :=
  ⟨⟨_, decode_wordOfLow (.scalar false .nulC .nul) 7 rfl⟩, rfl, rfl⟩

theorem witness_DecodeEncode :
    ∀ i ∈ [Instr.vnul false, .nul true .nul, .gotoK false .vle true 0xFFFFFFFF .nul, .add false .nul 0 false 7 7 7,
      .vLdArInc false 31 .wfifo 7 true true .none], i.wellFormed = true := by decide

theorem witness_ConstructorsAgree :
    (Instr.add false .nul 0 false 0 1 2).code = (Instr.nul false (.alu (.std 0) .add 1 2)).code ∧
      Instr.add false .nul 0 false 0 1 2 ≠ Instr.nul false (.alu (.std 0) .add 1 2) := by decide

theorem witness_StepRunsDecoded :
    w0.stuck = false ∧ (∀ k : Fin 9, w0.ireq.getLsbD k = true → w0.psw (k + 5) = true) ∧
      decode (w0.read32 64 w0.ipc) (w0.read32 64 (w0.ipc + 1)) = .ok (.vnul false) ∧ w0.inputs = [] ∧
      (wp 1 true .jump).pending.isSome = true := by
  refine ⟨rfl, by decide, rfl, rfl, rfl⟩

/-- The state of TV-int-2, with sp `x`. -/
def wi (x : Word) : State := { at' 0x150 9 [(7, x)] [] [] with ireq := 1 }

theorem witness_InterruptEntry :
    (wi 0x3000).inputs = [] ∧ (wi 0x3000).stuck = false ∧ (wi 0x3000).pending = none ∧
      (wi 0x3000).params.intPriority = [8, 7, 6, 5, 4, 3, 2, 1] ++ 0 :: [] ∧
      (∀ j ∈ ([8, 7, 6, 5, 4, 3, 2, 1] : List (Fin 9)), (wi 0x3000).ireq.getLsbD j = true → (wi 0x3000).psw (j + 5) = true) ∧
      (wi 0x3000).ireq.getLsbD 0 = true ∧ (wi 0x3000).psw 5 = false ∧ (wi 0x3000).sp.odd = false ∧
      (wi 0x3001).sp.odd = true ∧ (wi 0x3000).backed 0x3000 = true := by decide

theorem witness_InterruptReturn : ∃ t, (wi 0x3000).takeInterrupt 0 = .ok t ∧
    (wi 0x3000).backed (wi 0x3000).sp = true ∧ (wi 0x3000).backed ((wi 0x3000).sp + 1) = true ∧
    t.params = (wi 0x3000).params ∧ (∀ n, 20 ≤ n → n ≤ 25 → t.psw n = (wi 0x3000).psw n) ∧ t.pending = none := by
  refine ⟨_, rfl, by decide, by decide, rfl, ?_, rfl⟩
  intro n h1 h2
  interval_cases n <;> rfl

/-- A blocked machine. -/
def ws : State := { w0 with stuck := true }

/-- The invariant holds of a state of the witnesses: `stuck` and the schedule do not enter it. -/
theorem inv_w0 (b : Bool) (l : List Input) : Inv { w0 with stuck := b, inputs := l } where
  mem := rfl
  buffers := ⟨Nat.zero_le 32, Nat.zero_le 32, Nat.zero_le 32⟩
  clear := ⟨fun _ => rfl, fun _ => rfl⟩
  pending := by
    intro q h
    cases h
  ports := ⟨⟨nofun, nofun⟩, nofun, nofun⟩
  dma := fun _ => ⟨rfl, rfl, rfl, rfl⟩

theorem witness_StuckStays : Inv ws ∧ ws.stuck = true ∧ (∀ rest, ws.inputs ≠ .reset :: rest) ∧ step ws = .next ws := by
  refine ⟨inv_w0 true [], rfl, ?_, rfl⟩
  intro rest h
  cases h

theorem witness_InvStep : (Inv w0 ∧ ∃ t, step w0 = .next t) ∧ ∃ s : State, Inv s ∧ s.dmaSeen = true ∧
    (∀ rest, s.inputs ≠ .reset :: rest) ∧ ∃ t, step s = .next t := by
  refine ⟨⟨inv_w0 false [], _, rfl⟩, { w0 with dmaSeen := true }, ?_, rfl, nofun, _, rfl⟩
  have h := inv_w0 false []
  exact ⟨h.mem, h.buffers, h.clear, h.pending, h.ports, nofun⟩

theorem witness_CpFieldsKept : (∃ t, exec (.nul false .nul) w0 = .next t) ∧
    (∀ p k r, (Instr.nul false .nul).code ≠ ⟨.scalar p .pswrSet r, k⟩) ∧
    ∀ p k r, (Instr.nul false .nul).code ≠ ⟨.scalar p .pswrClear r, k⟩ := by
  refine ⟨⟨_, rfl⟩, ?_, ?_⟩ <;> intro p k r h <;> simp [Instr.code] at h

theorem witness_FlagWriters : (∃ t, exec (.add false .nul 0 true 0 1 2) w0 = .next t) ∧ keepsPswr .nul = true ∧
    setsFlags (.alu (.noflags 0) .add 1 2) = false ∧ (∃ t, exec (.vnul false) (wp 1 true .jump) = .next t) ∧
    ∀ q, (wp 1 true .jump).pending = some q → q.taken = true → q.kind ≠ .iret := by
  refine ⟨⟨_, rfl⟩, rfl, rfl, ⟨_, rfl⟩, ?_⟩
  intro q h _
  cases h
  decide

theorem witness_IpcAdvance : ∃ t, exec (.gotoK false .eq0 false 0x200 .nul) (wp 2 true .jump) = .next t ∧
    (wp 2 true .jump).stuck = false ∧ t.stuck = false ∧
    (∀ q, (wp 2 true .jump).pending = some q → 1 < q.n ∨ q.taken = false) ∧ Cond.eq0.holds (wp 2 true .jump) = false ∧
    (∀ q, (wp 1 false .jump).pending = some q → 1 < q.n ∨ q.taken = false) := by
  refine ⟨_, rfl, rfl, rfl, ?_, rfl, ?_⟩ <;> (intro q h; cases h; decide)

theorem witness_WtwOnly : (∃ t, exec (.vnul true) w0 = .next t) ∧ (∃ t, exec (.vNoLeft false 0 .none) w0 = .next t) ∧
    (∃ t, exec (.nul false .nul) w0 = .next t) := ⟨⟨_, rfl⟩, ⟨_, rfl⟩, ⟨_, rfl⟩⟩

/-- A request that stays because it is masked, and one that is taken. -/
theorem witness_RequestsKept :
    (∃ t, step { w0 with ireq := 1, pswr := 0x20 } = .next t) ∧ (∃ t, step (wi 0x3000) = .next t) ∧
    (wi 0x3000).ireq.getLsbD 0 = true ∧ (wi 0x3000).inputs = [] := ⟨⟨_, rfl⟩, ⟨_, rfl⟩, rfl, rfl⟩

/-- A machine without memory from 8000h on. -/
def wu : State := { w0 with params := { Config.Params.default with unbacked := [(0x8000, 0xFFFFFFFF)] } }

theorem witness_MemReadWrite :
    wu.backed 0 = true ∧ wu.backed 1 = true ∧ wu.backed 0x7FFF = true ∧ wu.backed 0x8000 = false ∧
      wu.backed 0xFFFFFFFF = false := by decide

theorem witness_ConditionTable :
    (at' 0 9 [] [] []).psw 3 = true ∧ (at' 0 9 [] [] []).psw 2 = false ∧ (at' 0 9 [] [] []).psw 1 = false ∧
      (at' 0 9 [] [] []).psw 0 = true := by decide

theorem witness_Refusals :
    (Instr.amAddGr false 0 4 .nul).code.low.defect = some .dagGroups ∧ ((4 : Ix).val < 4 ↔ ¬ (0 : Ix).val < 4) ∧
    SpecPair.t0t1 ≠ .pswrpc ∧ (3 : Rep) ≠ 4 ∧ (⟨.none, false, true⟩ : VLeft).wtw = true ∧
    (Instr.gotoK false .always false 0 .nul).wellFormed = true ∧ (0x101 : Word).odd = true ∧
    (Instr.ldAr false (.pair 0) 1 .nul).code = ⟨.scalar false (.load (.pair 0) (.ar 1)) .nul, 0⟩ ∧
    (Instr.ldAr false (.pair 0) 1 .nul).wellFormed = true ∧
    ((Mode.ar 1).ea 0 2 (at' 0x101 0 [(1, 0x301)] [] [])).odd = true ∧
    (Instr.stAr false 1 (.pair 0) .nul).wellFormed = true ∧ (6 : Ix) ≠ 7 ∧
    2 ≤ (2 : Fin 33).val ∧ (31 : Fin 33).val ≤ 31 := by decide

/-- A 64-bit push and pop, and each kind of transfer, at an odd sp. -/
theorem witness_Refusals_sp :
    (Instr.pushPair false 0 .nul).code = ⟨.scalar false (.push (.pair 0)) .nul, 0⟩ ∧
    (Instr.popPair false 0 .nul).code = ⟨.scalar false (.pop (.pair 0)) .nul, 0⟩ ∧
    (Instr.ret false .always false .nul).code = ⟨.scalar false (.xfer .always false .ret) .nul, 0⟩ ∧
    (Instr.callK false .always false 4 .nul).code = ⟨.scalar false (.xfer .always false (.call .const)) .nul, 4⟩ ∧
    (∀ i ∈ [Instr.pushPair false 0 .nul, .popPair false 0 .nul, .ret false .always false .nul,
      .iret false .always false .nul, .callK false .always false 4 .nul, .callrelGr false .always false 0 .nul],
      LeftMet i (w0.setAr 7 0x1001)) ∧
    Cond.always.holds (w0.setAr 7 0x1001) = true ∧ (w0.setAr 7 0x1001).sp.odd = true := by decide

/-- An odd address register, and an Active Matrix of three rows where sb2 says eight. -/
theorem witness_Refusals_vector :
    let s := { w0.setAr 1 0x301 with afifo := [5], wa := [1, 2, 3], sb2 := 0x11111111 }
    let i := Instr.vSum0 false 0 ⟨.load .data (.ar 1), false, false⟩ (.buf .afifo)
    let r := VRight.vsum none false ⟨false, .buf .afifo⟩ ⟨false, .null⟩
    i.code = ⟨.vector false 0 ⟨.load .data (.ar 1), false, false⟩ r, 0⟩ ∧
    vectorDefect 0 ⟨.load .data (.ar 1), false, false⟩ r = none ∧ s.wfifoBlocks 0 false = false ∧
    s.vectorError 1 (.load .data (.ar 1)) r = false ∧ (s.ar 1).odd = true ∧
    s.wa.length ≠ rows s.sb2 ∧ s.vectorOdd (.load .data (.ar 2)) = false := by decide +kernel

theorem witness_NopRows :
    (∀ i ∈ [Instr.nul false .nul, .nulK false 7 (.shift .rol 1 2 31)], LeftMet i w0) ∧
    RightMet (.withNulRight false .nul 0) w0 := by decide

/-- Loads of 64 bits, the address even; of 32 bits, the address odd. -/
theorem witness_LoadRows :
    (∀ i ∈ [Instr.ldConst false (.pair 0) 2 .nul, .ldAr false (.pair 0) 1 .nul, .ldGr false (.pair 0) 1 .nul,
      .ldArInc false (.pair 1) 1 .nul, .ldDecAr false (.pair 0) 1 .nul, .ldArIncGr false (.pair 0) 1 .nul,
      .ldArAddGr false (.pair 0) 1 .nul, .ldArSetGr false (.pair 0) 1 .nul, .ldArSetConst false (.pair 0) 1 2 .nul,
      .ldArAddConst false (.pair 0) 1 true 2 .nul, .ldVctl false (.full .sb) (.ar 1) 0 .nul], LeftMet i w0) ∧
    (∀ x ∈ [(2 : Word), w0.ar 1, w0.gr 1, w0.ar 1 - 2, w0.ar 1 + w0.gr 1], x.odd = false) ∧
    LeftMet (.ldAr false (.gr 0) 1 (.alu (.std 1) .add 0 0)) (at' 0x101 0 [(1, 0x301)] [] []) := by
  refine ⟨by decide, ?_, by decide⟩
  intro x hx
  simp only [List.mem_cons, List.not_mem_nil, or_false] at hx
  rcases hx with rfl | rfl | rfl | rfl | rfl <;> rfl

theorem witness_StoreRows :
    (∀ i ∈ [Instr.stConst false (.pair 0) 2 .nul, .stAr false 1 (.pair 0) .nul, .stGr false 1 (.pair 0) .nul,
      .stArInc false 1 (.pair 1) .nul, .stDecAr false 1 (.pair 0) .nul, .stArIncGr false 1 (.pair 0) .nul,
      .stArAddGr false 1 (.pair 0) .nul, .stArSetGr false 1 (.pair 0) .nul, .stArSetConst false 1 (.pair 0) 2 .nul,
      .stArAddConst false 1 true (.pair 0) 2 .nul], LeftMet i w0) ∧
    (∀ x ∈ [(2 : Word), w0.ar 1, w0.gr 1, w0.ar 1 - 2, w0.ar 1 + w0.gr 1], x.odd = false) := by
  refine ⟨by decide, ?_⟩
  intro x hx
  simp only [List.mem_cons, List.not_mem_nil, or_false] at hx
  rcases hx with rfl | rfl | rfl | rfl | rfl <;> rfl

theorem witness_PushRows :
    (∀ i ∈ [Instr.pushAr false 7 .nul, .pushGr false 0 .nul, .pushPair false 0 .nul,
      .stackOther false false (.special (.two .icc0ica0)) .nul], LeftMet i w0) ∧ w0.sp.odd = false := by decide

theorem witness_PopRows :
    (∀ i ∈ [Instr.popAr false 7 .nul, .popGr false 0 .nul, .popPair false 7 .nul,
      .stackOther false true (.special (.one .pswr)) .nul, .popDrop false .nul], LeftMet i w0) ∧
    w0.sp.odd = false := by decide

theorem witness_CopyRows :
    ∀ i ∈ [Instr.cpArAr false 0 1 .nul, .cpGrAr false 0 1 .nul, .cpArGr false 0 1 .nul, .cpGrGr false 0 1 .nul,
      .cpPairPair false 0 1 .nul, .cpPairAr false 0 1 .nul, .cpPairGr false 0 1 .nul, .cpVHalfAr false .sbh 1 .nul,
      .cpVHalfGr false .nb1l 1 .nul, .cpVRegAr false .vr 1 .nul, .cpVRegGr false .f1cr 1 .nul, .cpVRegPair false .sb 1 .nul,
      .cpArSpec false 0 .intr .nul, .cpGrSpec false 0 .t1 .nul, .cpPairSpec false 0 (.two .t0t1) .nul,
      .cpSpecPrim false (.one .pswr) (.gr 0) .nul, .cpOther false (.special (.two .occ1oca1)) (.pair 0) .nul],
    LeftMet i w0 := by decide

theorem witness_RegisterReads :
    State.reset.dmaSeen = false ∧ (bufs 1 32).afifo ≠ [] ∧ (bufs 1 32).afifo.length ≤ 32 ∧ (bufs 1 32).ram ≠ [] ∧
      (bufs 1 32).ram.length ≤ 32 := by decide

theorem witness_ConstRows :
    ∀ i ∈ [Instr.setAr false 7 1 .nul, .setGr false 0 1 .nul, .setPair false 0 1 .nul,
      .setSpec false (.one .t0) 1 .nul, .setVHalf false .sbl 1 .nul, .setVReg false .sb 1 .nul], LeftMet i w0 := by decide

/-- The address registers are of one group: 0 and 3, 4 and 7. -/
theorem witness_AddrModRows :
    ∀ i ∈ [Instr.amMovAr false 0 3 .nul, .amMovGr false 4 7 .nul, .amAddGr false 0 1 .nul, .amAddConst false 0 1 true 5 .nul,
      .amSetConst false 0 5 .nul, .amInc false 7 .nul, .amDec false 0 .nul, .amIncGr false 0 true .nul,
      .amIncConst false 0 5 .nul, .amDecConst false 0 5 .nul], LeftMet i w0 := by decide

theorem witness_PswrRows :
    LeftMet (.pswrSet false 0xFFFFFFFF .nul) w0 ∧
    LeftMet (.pswrClear true 0xFFFFFFFF (.alu (.std 1) .add 1 2)) w0 := by decide

theorem witness_GotoRows :
    ∀ i ∈ [Instr.gotoK false .eq0 false 5 .nul, .gotoAr false .ne0 false 1 .nul, .gotoGr false .always false 1 .nul,
      .gotoArGr false .ult false 1 .nul, .gotoArK false .vle false 1 true 5 .nul, .skipK false .gt false 5 .nul,
      .skipGr false .carry false 1 .nul], LeftMet i w0 := by decide

/-- One condition holds, the other does not. -/
theorem witness_CallRows :
    (∀ c ∈ [Cond.always, .eq0], ∀ i ∈ [Instr.callK false c false 5 .nul, .callAr false c false 1 .nul,
      .callGr false c false 1 .nul, .callArGr false c false 1 .nul, .callArK false c false 1 true 5 .nul,
      .callrelK false c false 5 .nul, .callrelGr false c false 1 .nul], LeftMet i w0) ∧
    Cond.always.holds w0 = true ∧ Cond.eq0.holds w0 = false ∧ w0.sp.odd = false := by decide

theorem witness_ReturnRows :
    (∀ c ∈ [Cond.always, .eq0], LeftMet (.ret false c false .nul) w0 ∧ LeftMet (.iret false c false .nul) w0) ∧
    Cond.always.holds w0 = true ∧ Cond.eq0.holds w0 = false ∧ w0.sp.odd = false := by decide

theorem witness_DelayedRows :
    ∀ i ∈ [Instr.gotoK false .eq0 true 5 .nul, .gotoAr false .ne0 true 1 .nul, .gotoGr false .always true 1 .nul,
      .gotoArGr false .ult true 1 .nul, .gotoArK false .vle true 1 false 5 .nul, .skipK false .gt true 5 .nul,
      .skipGr false .carry true 1 .nul, .callK false .lt true 5 .nul, .callAr false .eq0 true 1 .nul,
      .callGr false .always true 1 .nul, .callArGr false .ge true 1 .nul, .callArK false .vge true 1 true 5 .nul,
      .callrelK false .vlt true 5 .nul, .callrelGr false .le true 1 .nul, .ret false .uge true .nul,
      .iret false .vtrue true .nul], LeftMet i w0 := by decide

/-- What follows a branch decodes, and an instruction that is no delayed transfer runs with no record. -/
theorem witness_DelayedRows_lens :
    decode (w0.read32 66 0x101) 0 = .ok (.vnul false) ∧ (∃ t, exec (.gotoAr false .always false 1 .nul) w0 = .next t) ∧
    w0.pending = none ∧ ∀ p c x r k, (Instr.gotoAr false .always false 1 .nul).code ≠ ⟨.scalar p (.xfer c true x) r, k⟩ := by
  refine ⟨rfl, ⟨_, rfl⟩, rfl, ?_⟩
  intro p c x r k h
  simp [Instr.code] at h

/-- The clauses of the countdown: a count of 2 and of 1, taken or not, each kind. -/
theorem witness_DelayCountdown :
    (∀ n ∈ [1, 2], ∀ taken ∈ [true, false], ∀ kind ∈ [XferKind.jump, .call, .ret, .iret],
      (wp n taken kind).pending = some ⟨taken, kind, 0x200, n⟩ ∧ (wp n taken kind).stuck = false) ∧
    (∀ p c d x r k, (Instr.nul false .nul).code ≠ ⟨.scalar p (.xfer c d x) r, k⟩) ∧
    ∃ u, exec (.nul false .nul) w0 = .next u ∧ u.stuck = false ∧ u.sp.odd = false ∧ u.backed (u.sp - 2) = true ∧
      u.backed (u.sp - 1) = true ∧
    ∃ u, exec (.nul false .nul) (w0.setAr 7 0x1001) = .next u ∧ u.stuck = false ∧ u.sp.odd = true := by
  refine ⟨by decide, ?_, _, rfl, rfl, rfl, rfl, rfl, _, rfl, rfl, rfl⟩
  intro p c d x r k h
  simp [Instr.code] at h

theorem witness_TransferInWindow :
    (Instr.gotoK false .eq0 true 5 .nul).code = ⟨.scalar false (.xfer .eq0 true (.goto .const)) .nul, 5⟩ ∧
    (wp 1 true .call).pending.isSome = true ∧ (Instr.gotoK false .eq0 true 5 .nul).wellFormed = true ∧
    (wp 1 true .call).ipc.odd = false ∧ Cond.eq0.holds (wp 1 true .call) = false ∧
    Cond.always.holds (wp 1 true .call) = true := by decide

theorem witness_AddRows :
    ∀ i ∈ [Instr.add false .nul 0 false 0 0 0, .addTo false .nul 0 true 7 0, .inc false .nul 0 false 0 1,
      .incSelf false .nul 0 false 7, .addC false .nul 0 true 0 1, .addBC false .nul 0 false 0 1 2], RightMet i w0 := by
  decide

/-- Beside a left part: a load of another register. -/
theorem witness_AddRows_load :
    RightMet (.add false (.load (.gr 2) (.ar 1)) 0 false 0 1 1) w0 ∧ leftReady (.load (.gr 2) (.ar 1)) 0 w0 :=
  ⟨by decide, by decide, by decide⟩

theorem witness_SubRows :
    ∀ i ∈ [Instr.sub false .nul 0 false 0 0 0, .subFrom false .nul 0 true 7 0, .dec false .nul 0 false 0 1,
      .decSelf false .nul 0 false 7, .subC false .nul 0 true 0 1, .subBC false .nul 0 false 0 1 2,
      .negGr false .nul 0 false 0 0], RightMet i w0 := by decide

theorem witness_LogicRows :
    ∀ i ∈ [Instr.orGr false .nul 0 false 0 1 2, .andGr false .nul 0 true 0 1 2, .xorGr false .nul 0 false 7 7 7,
      .notGr false .nul 0 false 0 1, .notAorB false .nul 0 false 0 1 2, .aOrNotB false .nul 0 false 0 1 2,
      .copyGr false .nul 0 true 0 1, .notAorNotB false .nul 0 false 0 1 2, .notAandB false .nul 0 false 0 1 2,
      .aAndNotB false .nul 0 false 0 1 2, .notAandNotB false .nul 0 false 0 1 2, .notAxorB false .nul 0 false 0 1 2,
      .aXorNotB false .nul 0 false 0 1 2, .setFalse false .nul 0 false 0, .setTrue false .nul 0 true 0], RightMet i w0 := by
  decide

theorem witness_FlagsOnlyRows :
    (∀ i ∈ [Instr.addFlags false .nul 0 1 2, .testGr false .nul 0 7, .testNeg false .nul 0 7,
      .testExpr false .nul 0 .subBC 1 2], RightMet i w0) ∧ w0.params.carrySense = .borrow ∧
    (Instr.subBC true .nul 0 false 7 1 2).code = ⟨.scalar true .nul (.alu (.std 7) .subBC 1 2), SLeft.nul.constOf 0⟩ ∧
    SLeft.nul.grWrite ≠ some 7 := by decide

theorem witness_TrueFalseRows :
    RightMet (.flagsTrue false .nul 0) w0 ∧ RightMet (.flagsFalse true .nul 0) w0 ∧ keepsPswr .nul = true := by decide

/-- The amounts 1 and 31. -/
theorem witness_ShiftRows :
    ∀ i ∈ [Instr.shl false .nul 0 0 1 1, .shr false .nul 0 0 1 31, .sar false .nul 0 0 1 31, .rol false .nul 0 0 1 1,
      .ror false .nul 0 0 1 31, .rcl false .nul 0 0 1, .rcr false .nul 0 0 1], RightMet i w0 := by decide

/-- Beside an empty left part, a delayed transfer, and a load that is refused. -/
theorem witness_ShiftByZero : (0 : Fin 33).val = 0 ∧ (32 : Fin 33).val = 32 ∧ (∀ c x, SLeft.nul ≠ .xfer c true x) ∧
    (Instr.ror false .nul 0 1 2 32).code = ⟨.scalar false .nul (.shift .ror 1 2 32), 0⟩ ∧
    (Instr.withNulRight false .nul 0).code = ⟨.scalar false .nul .nul, 0⟩ ∧
    (∃ t, exec (.withNulRight false (.xfer .always true .ret) 0) w0 = .next t) ∧
    ∃ e, exec (.withNulRight false (.load (.pair 0) (.ar 1)) 0) (w0.setAr 1 1) = .refused e :=
  ⟨rfl, rfl, nofun, rfl, rfl, ⟨_, rfl⟩, _, rfl⟩

theorem witness_MulRows :
    RightMet (.mulFirst false .nul 0 false 0 1) w0 ∧ RightMet (.mulNext false .nul 0 true 7 1) w0 := by decide

/-- Elements at both ends of the word, of 1, 8, 32 and 64 bits. -/
theorem witness_AddSubElements :
    (0, 8) ∈ splitNB 0x8080808080808080 ∧ (63, 1) ∈ splitNB 0xFFFFFFFFFFFFFFFF ∧ (0, 64) ∈ splitNB 0 ∧
      (32, 32) ∈ splitNB 0x8000000080000000 := by decide

/-- An element without ones, and one with three ones of eight. -/
theorem witness_ActivationElements :
    (0, 64) ∈ splitF 0 ∧ onesIn 0 0 64 = 0 ∧ (56, 8) ∈ splitF 0xE0E0E0E0E0E0E0E0 ∧
      onesIn 0xE0E0E0E0E0E0E0E0 56 8 = 3 := by decide

theorem witness_WeightedElements : (0, 8) ∈ splitNB vs1.nb2 ∧ (56, 8) ∈ splitNB vs1.nb2 ∧ splitSB vs1.sb2 ≠ [] := by decide

/-- `ftw` has a word to take, and the load of wfifo fills it. -/
def wv : State := { w0 with wfifo := some' 1 }

theorem witness_VLoadRows :
    (∀ e ∈ [(LBuf.data, VMode.ar 1), (.ram, .arInc 1), (.wfifo, .decAr 1), (.data, .gr 1), (.ram, .arSetGr 1),
      (.wfifo, .arIncGr 1), (.data, .arAddGr 1)], vectorReady 30 ⟨.load e.1 e.2, true, true⟩ .none wv) ∧
    vectorReady 31 ⟨.load .data (.arInc 1), false, false⟩ (.logic .or false false ⟨false, .buf .data⟩ ⟨false, .null⟩) wv ∧
    wv.pending = none := by
  simp only [vectorReady]
  decide +kernel

/-- The same with 32 words, and with one, in afifo. -/
theorem witness_VStoreRows :
    (∀ m ∈ [VMode.ar 1, .gr 1, .arSetGr 1, .arInc 1, .decAr 1, .arIncGr 1, .arAddGr 1],
      vectorReady 31 ⟨.store m true, true, true⟩ .none { wv with afifo := some' 32 }) ∧
    vectorReady 0 ⟨.store (.ar 1) false, false, false⟩ (.fill true) { wv with afifo := some' 1 } := by
  simp only [vectorReady]
  decide +kernel

theorem witness_VEmptyRows :
    vectorReady 0 ⟨.none, false, false⟩ (.fill false) wv ∧ vectorReady 0 ⟨.none, true, true⟩ .none wv ∧
    vectorReady 7 ⟨.load .data (.ar 1), false, false⟩ .none wv ∧ rows wv.sb1 ≤ wv.wfifo.length ∧ wv.wfifo.length ≤ 32 ∧
    wv.pending = none := by
  simp only [vectorReady]
  decide +kernel

/-- Data loaded, one word in afifo and in ram: every operand of the tables can be read. -/
def wo : State := { w0 with afifo := some' 1, ram := some' 1 }

/-- The left part that loads data. -/
def ld : VLeft := ⟨.load .data (.ar 1), false, false⟩

theorem witness_VLogicRows :
    ∀ r ∈ [VRight.logic .or false false ⟨false, .buf .afifo⟩ ⟨false, .buf .ram⟩,
      .logic .and false false ⟨false, .buf .afifo⟩ ⟨false, .buf .data⟩, .logic .xor true false ⟨false, .buf .afifo⟩ ⟨false, .buf .ram⟩,
      .logic .or true true ⟨false, .buf .afifo⟩ ⟨false, .null⟩, .logic .and true true ⟨true, .buf .afifo⟩ ⟨true, .buf .ram⟩,
      .logic .xor false false ⟨true, .buf .afifo⟩ ⟨true, .buf .ram⟩], vectorReady 0 ld r wo := by
  simp only [vectorReady]
  decide +kernel

/-- `vfalse` and `vtrue` read nothing: afifo is empty. -/
theorem witness_VLogicRows_fill :
    vectorReady 0 noLeft (.fill false) w0 ∧ vectorReady 31 noLeft (.fill true) w0 ∧ w0.pending = none := by
  simp only [vectorReady]
  decide +kernel

theorem witness_VArithRows :
    (∀ r ∈ [VRight.arith false ⟨false, .buf .afifo⟩ ⟨false, .buf .ram⟩, .arith true ⟨false, .buf .data⟩ ⟨false, .buf .afifo⟩,
      .arith true ⟨false, .null⟩ ⟨false, .buf .afifo⟩, .arith false ⟨false, .buf .afifo⟩ ⟨false, .one⟩,
      .arith true ⟨false, .buf .afifo⟩ ⟨false, .one⟩, .arith false ⟨true, .buf .afifo⟩ ⟨true, .buf .ram⟩,
      .arith true ⟨false, .buf .afifo⟩ ⟨true, .buf .ram⟩], vectorReady 0 ld r wo) ∧
    vectorReady 0 noLeft (.arith false ⟨false, .null⟩ ⟨false, .one⟩) w0 ∧
    vectorReady 0 noLeft (.arith true ⟨false, .null⟩ ⟨false, .one⟩) w0 := by
  simp only [vectorReady]
  decide +kernel

theorem witness_VMaskRows :
    ∀ r ∈ [VRight.mask .afifo false ⟨false, .buf .ram⟩ ⟨false, .buf .data⟩, .mask .data true ⟨false, .buf .afifo⟩ ⟨false, .null⟩,
      .mask .ram false ⟨true, .buf .afifo⟩ ⟨true, .buf .data⟩, .mask .afifo true ⟨true, .buf .ram⟩ ⟨false, .buf .data⟩,
      .mask .afifo false ⟨false, .null⟩ ⟨true, .buf .ram⟩], vectorReady 0 ld r wo := by
  simp only [vectorReady]
  decide +kernel

theorem witness_VSumRows :
    ∀ r ∈ [VRight.vsum none false ⟨false, .buf .afifo⟩ ⟨false, .null⟩, .vsum none false ⟨false, .buf .afifo⟩ ⟨false, .vr⟩,
      .vsum (some .ram) false ⟨false, .buf .afifo⟩ ⟨false, .buf .data⟩, .vsum (some .ram) true ⟨false, .buf .afifo⟩ ⟨false, .vr⟩,
      .vsum none true ⟨false, .buf .afifo⟩ ⟨false, .null⟩, .vsum none false ⟨true, .buf .afifo⟩ ⟨false, .buf .ram⟩,
      .vsum none false ⟨false, .buf .afifo⟩ ⟨true, .buf .ram⟩, .vsum (some .ram) false ⟨true, .buf .afifo⟩ ⟨true, .buf .data⟩,
      .vsum none true ⟨true, .buf .afifo⟩ ⟨false, .null⟩], vectorReady 0 ld r wo := by
  simp only [vectorReady]
  decide +kernel

theorem witness_VOtherRows :
    (∀ r ∈ [VRight.logic .or true true ⟨true, .buf .afifo⟩ ⟨true, .buf .ram⟩, .arith false ⟨true, .buf .afifo⟩ ⟨false, .one⟩,
      .mask .data true ⟨true, .buf .afifo⟩ ⟨true, .buf .ram⟩, .vsum (some .data) true ⟨true, .buf .afifo⟩ ⟨true, .buf .ram⟩,
      .vsum none true ⟨false, .buf .afifo⟩ ⟨true, .buf .ram⟩], vectorReady 0 ld r wo) ∧
    vectorReady 4 noLeft .storeRegs w0 := by
  simp only [vectorReady]
  decide +kernel

/-- `rep 8 with data + 1;` without a load of data. -/
theorem witness_VectorChecks :
    (Instr.vInc false 7 noLeft (.buf .data)).code = ⟨.vector false 7 noLeft (.arith false ⟨false, .buf .data⟩ ⟨false, .one⟩), 0⟩ ∧
    vectorDefect 7 noLeft (.arith false ⟨false, .buf .data⟩ ⟨false, .one⟩) = none ∧
    w0.wfifoBlocks (noLeft.mem.wfifoLoad 8) false = false ∧
    w0.vectorError 8 noLeft.mem (.arith false ⟨false, .buf .data⟩ ⟨false, .one⟩) = true ∧ w0.pending = none := by
  decide +kernel

/-- One word too few for `ftw`, and one too many for wfifo. -/
theorem witness_WfifoBlocked :
    (weights 4).wfifo.length + 3 < rows 0x11111111 ∧ rows 0x11111111 + 32 < (weights 32).wfifo.length + 9 ∧
    (weights 7).wfifo.length < rows (weights 7).sb1 ∧
    (Instr.vLdWfifo false 2 (.ar 0) true false .none).code = ⟨.vector false 2 ⟨.load .wfifo (.ar 0), true, false⟩ .none, 0⟩ ∧
    vectorDefect 2 ⟨.load .wfifo (.ar 0), true, false⟩ .none = none := by decide +kernel

/-- A timer at its last count, in the single mode, in the loop mode, stopped and held. -/
theorem witness_TimerTick :
    ∀ ps ∈ [(0 : Word), 0x10000, 0x20000, 0x30000], ∀ stopped ∈ [true, false], ∀ c ∈ [(0xFFFFFFFF : Word), 0xFFFFFFFE],
      ({ at' 0 ps [] [] [] with timer1 := ⟨c, 7, stopped⟩, inputs := [.timerClock] } : State).inputs = .timerClock :: [] := by
  intro ps _ stopped _ c _
  rfl

theorem witness_DmaSteps :
    (p2 0).inputs = .dmaIn .u1 :: [] ∧ ((p2 0).port .u1).inQ = 0xAABBCCDD00112233 :: [] ∧ (p2 0).psw 24 = false ∧
    ((p2 0).port .u1).moving ≠ some .output ∧ ((p2 0).port .u1).icc ≠ 0 ∧ ((p2 0).port .u1).ica.odd = false ∧
    (at' 0 0x400000 [] [] []).psw 22 = true ∧ (at' 0 0x400000 [] [] []).psw 21 = false ∧
    (at' 0 0x400000 [] [] []).psw 20 = false ∧ (at' 0 0x400000 [] [] []).port0.moving ≠ some .input := by decide

/-- A transfer of one direction, with words left, holds the other back. -/
theorem witness_DmaSteps_blocked :
    let q : Port := { Port.atReset .output with icc := 0xFFFFFFFE, occ := 0xFFFFFFFE, moving := some .input }
    let s : State := { w0 with port0 := q, inputs := [.dmaOut .u0] }
    s.inputs = .dmaOut .u0 :: [] ∧ s.port .u0 = q ∧ q.moving = some .input ∧ q.icc ≠ 0 := by decide

theorem witness_ResetAndExtInt :
    Inv { w0 with stuck := false, inputs := [.extInt] } ∧ ({ w0 with inputs := [.reset] } : State).inputs = .reset :: [] :=
  ⟨inv_w0 false [.extInt], rfl⟩

end Sys2Proof.Tests
end

section
/-! PROOFS. How an instruction ends: what the end of an instruction, a control transfer's action and a vector
instruction leave alone, each said once. -/

namespace Sys2Proof.Machine

open Sys2Proof

/-! ### Control transfer actions (R472 to R512) -/

/-- Only `ireturn` restores pswr (R512). -/
theorem State.action_pswr {s t : State} {kind : XferKind} {target ret : Word}
    (h : s.action kind target ret = .ok t) (hk : kind ≠ .iret) : t.pswr = s.pswr := by
  rcases State.action_ok h with ⟨_, rfl⟩ | ⟨_, _, rfl⟩ | ⟨_, _, rfl⟩ | ⟨rfl, _, rfl⟩
  · rfl
  · simp
  · rfl
  · exact absurd rfl hk

/-- No action changes the fields CP1 and CP0 control (R56, R512). -/
theorem State.action_psw_cp {s t : State} {kind : XferKind} {target ret : Word}
    (h : s.action kind target ret = .ok t) {n : Nat} (h1 : 20 ≤ n) (h2 : n ≤ 25) : t.psw n = s.psw n := by
  rcases State.action_ok h with ⟨_, rfl⟩ | ⟨_, _, rfl⟩ | ⟨_, _, rfl⟩ | ⟨_, _, rfl⟩
  · rfl
  · simp [State.psw]
  · rfl
  · exact (pswrWritten_bit s.pswr _ n (by omega)).trans (if_pos ⟨h1, h2⟩)

/-! ### The end of an instruction (R58, R475) -/

/-- The end of an instruction leaves pswr, unless a delayed `ireturn` ends with it. -/
theorem State.finish_pswr {u t : State} {q : Option Pending} (h : u.finish q = .next t)
    (hq : ∀ d, q = some d → d.taken = true → d.kind ≠ .iret) : t.pswr = u.pswr := by
  obtain ⟨v, hv, rfl⟩ := State.finish_next h
  rcases State.settle_ok hv with ⟨_, rfl⟩ | ⟨d, _, _, rfl⟩ | ⟨d, hd, _, ht, ha⟩ | ⟨d, _, _, _, rfl⟩
  · rfl
  · rfl
  · have ha := State.action_pswr ha (hq d hd ht)
    exact ha
  · rfl

/-- The end of an instruction leaves the fields CP1 and CP0 control (R56). -/
theorem State.finish_psw_cp {u t : State} {q : Option Pending} (h : u.finish q = .next t) {n : Nat}
    (h1 : 20 ≤ n) (h2 : n ≤ 25) : t.psw n = u.psw n := by
  obtain ⟨v, hv, rfl⟩ := State.finish_next h
  rcases State.settle_ok hv with ⟨_, rfl⟩ | ⟨d, _, _, rfl⟩ | ⟨d, _, _, _, ha⟩ | ⟨d, _, _, _, rfl⟩
  · rfl
  · rfl
  · exact State.action_psw_cp ha h1 h2
  · rfl

/-- The end of an instruction leaves ipc, unless a delayed transfer that is taken ends with it (R475). -/
theorem State.finish_ipc {u t : State} {q : Option Pending} (h : u.finish q = .next t)
    (hq : ∀ d, q = some d → 1 < d.n ∨ d.taken = false) : t.ipc = u.ipc := by
  obtain ⟨v, hv, rfl⟩ := State.finish_next h
  rcases State.settle_ok hv with ⟨_, rfl⟩ | ⟨d, _, _, rfl⟩ | ⟨d, hd, hn, ht, _⟩ | ⟨d, _, _, _, rfl⟩
  · rfl
  · rfl
  · rcases hq d hd with h' | h'
    · omega
    · simp [ht] at h'
  · rfl

/-! ### Vector instructions (R631) -/

/-- A vector left part's memory step writes memory and the address registers only. -/
theorem State.vectorStore_eq (s : State) (m : VMem) (count : Nat) :
    ∃ μ α, s.vectorStore m count = { s with mem := μ, ars := α } := by
  obtain ⟨μ, h, _⟩ := State.vectorStore_form s m count
  obtain ⟨α, hα⟩ := State.applyUpd_form { s with mem := μ } (m.mode.bind fun v => v.upd count s)
  exact ⟨μ, α, by rw [h, hα]⟩

/-- What a vector instruction's effect changes: memory, the address registers, the buffers and, with `ftw` and
`wtw`, the matrices. -/
theorem State.vectorEffect_eq (s : State) (count : Nat) (l : VLeft) (r : VRight) :
    ∃ α ws wa nb2 sb2, s.vectorEffect count l r = { s with
      ars := α, ws := ws, wa := wa, nb2 := nb2, sb2 := sb2
      mem := (s.vectorStore l.mem count).mem
      ram := s.ramAfter l.mem (s.vectorData l.mem count)
      afifo := s.afifoAfter l.mem r (s.vectorResults r count (s.vectorData l.mem count))
      wfifo := (s.wfifoAfter l.mem (s.vectorData l.mem count)).drop (if l.ftw then rows s.sb1 else 0) } := by
  obtain ⟨μ, α, h⟩ := State.vectorStore_eq s l.mem count
  unfold State.vectorEffect State.doWeights
  rw [h]
  cases l.ftw <;> cases l.wtw <;> exact ⟨_, _, _, _, _, rfl⟩

/-- Whether an instruction is a vector instruction. -/
def isVector : Low → Bool
  | .scalar _ _ _ => false
  | .vector _ _ _ _ | .bare _ _ => true

/-- A vector instruction blocks the processor, or it ends after a state with the same pswr and the next ipc. -/
theorem exec_vector_next {i : Instr} {s t : State} (h : exec i s = .next t) (hv : isVector i.code.low = true) :
    t = s.block ∨ ∃ u : State, u.finish s.pending = .next t ∧ u.pswr = s.pswr ∧ u.ipc = s.ipc + 1 := by
  rw [exec_eq_run, run] at h
  split at h
  case h_1 hl => simp [hl, isVector] at hv
  case h_2 p n l r hl =>
    obtain ⟨_, ⟨_, hb⟩ | ⟨_, ⟨_, he⟩ | ⟨_, _, _, he⟩⟩⟩ := runVector_next h
    · exact .inl hb
    · exact .inr ⟨_, he, by simp, by simp⟩
    · obtain ⟨_, _, _, _, _, e⟩ := State.vectorEffect_eq s (n.val + 1) l r
      exact .inr ⟨_, he, by simp [e], by simp [e]⟩
  case h_3 hl =>
    rcases runBare_next h with ⟨_, _, hb⟩ | ⟨u, hu, he⟩
    · exact .inl hb
    · refine .inr ⟨_, he, ?_, ?_⟩ <;>
        rcases hu with rfl | rfl | ⟨_, rfl | rfl⟩ <;> simp

/-- A scalar instruction is executed as its parts say (R330). -/
theorem exec_scalar_next {i : Instr} {s t : State} {p : Bool} {l : SLeft} {r : SRight} (h : exec i s = .next t)
    (hl : i.code.low = .scalar p l r) : scalarDefect l r = none ∧
    ∃ u, s.leftPart ((s.rightPart r).advance l.len) l i.code.k (s.slots i.code) = .ok u ∧
      u.finish s.pending = .next t := by
  rw [exec_eq_run, run, hl] at h
  obtain ⟨hd, _, u, hu, hf⟩ := runScalar_next h
  refine ⟨hd, u, ?_, hf⟩
  rwa [← hl] at hu

/-! ### The left part of a scalar instruction -/

/-- The first of the checks of a scalar instruction: its left part is in the tables. -/
theorem scalarDefect_left {l : SLeft} {r : SRight} (h : scalarDefect l r = none) : l.defect = none := by
  simp only [scalarDefect, Option.or_eq_none_iff] at h
  exact h.1.1

/-- A left part that is none of R62 leaves pswr alone. -/
theorem State.leftPart_pswr {s T u : State} {l : SLeft} {k : Word} {n : Nat} (h : s.leftPart T l k n = .ok u)
    (hl : keepsPswr l = true) (hd : l.defect = none) : u.pswr = T.pswr := by
  have hload : ∀ {d : Reg} {m : Mode}, s.doLoad T d m k = .ok u → (d != .special (.one .pswr)) = true →
      d.dstDefect = none → u.pswr = T.pswr := by
    intro d m h hp hd
    obtain ⟨v, _, rfl⟩ := State.doLoad_ok h
    rw [State.writeReg_pswr _ _ _ (by simpa using hp) hd]; simp
  have hstore : ∀ {d m}, s.doStore T m d k = .ok u → u.pswr = T.pswr := by
    intro d m h
    obtain ⟨v, hv, rfl⟩ := State.doStore_ok h
    rcases State.store_ok hv with ⟨_, _, rfl⟩ | ⟨_, rfl⟩ <;> simp
  cases l with
  | load d m => exact hload h hl hd
  | pop d => exact hload h hl hd
  | store m r => exact hstore h
  | push r => exact hstore h
  | copy d r =>
    injection h with h; subst h
    simp only [SLeft.defect, Option.or_eq_none_iff] at hd
    exact State.writeReg_pswr _ _ _ (by simpa [keepsPswr] using hl) hd.1.2
  | setConst d =>
    injection h with h; subst h
    exact State.writeReg_pswr _ _ _ (by simpa [keepsPswr] using hl) hd
  | pswrSet => cases hl
  | pswrClear => cases hl
  | xfer c d x =>
    have hx : x.kind ≠ .iret := by
      cases x <;> simp [Xfer.kind, keepsPswr] at hl ⊢
    rcases State.doXfer_ok h with ⟨_, _, rfl⟩ | ⟨_, _, rfl⟩ | ⟨_, _, _, h⟩ | ⟨_, _, _, rfl⟩
    · rfl
    · rfl
    · exact State.action_pswr h hx
    · rfl
  | nul => injection h with h; subst h; rfl
  | nulC => injection h with h; subst h; rfl
  | popDrop => injection h with h; subst h; rfl
  | arMod o => injection h with h; subst h; rfl

end Sys2Proof.Machine
end

section
/-! PROOFS. The obligations on pswr and ipc: R56, R61, R44. -/

namespace Sys2Proof.Machine

open Sys2Proof

/-- Settles O11: neither part of an instruction, other than `pswr set` and `pswr clear`, nor its end changes the
fields. -/
theorem cpFieldsKept : Obligations.CpFieldsKept := by
  intro i s t h hset hclear n h1 h2
  have hvector : isVector i.code.low = true → t.psw n = s.psw n := by
    intro hv
    rcases exec_vector_next h hv with rfl | ⟨u, hf, hp, _⟩
    · rfl
    · rw [State.finish_psw_cp hf h1 h2, State.psw_congr hp]
  cases hl : i.code.low with
  | scalar p l r =>
    obtain ⟨_, u, hu, hf⟩ := exec_scalar_next h hl
    have hcode : i.code = ⟨.scalar p l r, i.code.k⟩ := by rw [← hl]
    have hl1 : l ≠ .pswrSet := by rintro rfl; exact hset _ _ _ hcode
    have hl2 : l ≠ .pswrClear := by rintro rfl; exact hclear _ _ _ hcode
    calc t.psw n = u.psw n := State.finish_psw_cp hf h1 h2
      _ = ((s.rightPart r).advance l.len).psw n := State.leftPart_psw_cp hu hl1 hl2 n h1 h2
      _ = s.psw n := by rw [State.psw_advance, State.rightPart_psw s r (by omega)]
  | vector => exact hvector (by rw [hl]; rfl)
  | bare => exact hvector (by rw [hl]; rfl)

/-- Settles O12: neither part writes pswr, and the end of the instruction does only where a delayed `ireturn` ends
with it. -/
theorem flagWriters : Obligations.FlagWriters := by
  intro i s t h hq hl'
  have hvector : isVector i.code.low = true → t.pswr = s.pswr := by
    intro hv
    rcases exec_vector_next h hv with rfl | ⟨u, hf, hp, _⟩
    · rfl
    · rw [State.finish_pswr hf hq, hp]
  cases hl : i.code.low with
  | scalar p l r =>
    rw [hl] at hl'
    obtain ⟨hkeep, hflags⟩ := hl'
    obtain ⟨hd, u, hu, hf⟩ := exec_scalar_next h hl
    calc t.pswr = u.pswr := State.finish_pswr hf hq
      _ = ((s.rightPart r).advance l.len).pswr := State.leftPart_pswr hu hkeep (scalarDefect_left hd)
      _ = s.pswr := State.rightPart_pswr s r hflags
  | vector => exact hvector (by rw [hl]; rfl)
  | bare => exact hvector (by rw [hl]; rfl)

/-- Settles O13: ipc is advanced once, before the left part; only a transfer that is taken changes it again. -/
theorem ipcAdvance : Obligations.IpcAdvance := by
  intro i s t h _ hstuck hq hx
  have hvector : isVector i.code.low = true → t.ipc = s.ipc + 1 := by
    intro hv
    rcases exec_vector_next h hv with rfl | ⟨u, hf, _, hp⟩
    · simp at hstuck
    · rw [State.finish_ipc hf hq, hp]
  cases hl : i.code.low with
  | scalar p l r =>
    obtain ⟨_, u, hu, hf⟩ := exec_scalar_next h hl
    have hnot : ∀ c x, l = .xfer c false x → c.holds s = false := by
      rintro c x rfl
      exact hx p c x r i.code.k (by rw [← hl])
    calc t.ipc = u.ipc := State.finish_ipc hf hq
      _ = ((s.rightPart r).advance l.len).ipc := State.leftPart_ipc hu hnot
      _ = s.ipc + l.len := by rw [State.advance_ipc, State.rightPart_ipc]
  | vector => exact hvector (by rw [hl]; rfl)
  | bare => exact hvector (by rw [hl]; rfl)

end Sys2Proof.Machine
end

section
/-! PROOFS. What every operation of a step keeps of the invariant, and no operation but RESET takes back: the note of
DMA activity. The clear bits hold at the end of a step only (R58), so the operations inside a step are about the
invariant without them. -/

namespace Sys2Proof.Machine

open Sys2Proof

/-- The invariant without the clear bits. -/
structure Sound (s : State) : Prop where
  mem : Memory.wf s.mem = true
  buffers : buffersFit s
  pending : pendingFits s
  ports : s.port0.movingFits ∧ s.port1.movingFits
  dma : dmaNoted s

/-- From `s` to `t` nothing of `Sound` is lost, nor the note of DMA activity. -/
structure KeepsSound (s t : State) : Prop where
  sound : Sound s → Sound t
  dmaSeen : s.dmaSeen = true → t.dmaSeen = true

theorem Inv.toSound {s : State} (h : Inv s) : Sound s := ⟨h.mem, h.buffers, h.pending, h.ports, h.dma⟩

/-- What is sound is the invariant once the clear bits have acted (R58). -/
theorem Sound.inv_end {s : State} (h : Sound s) : Inv s.clearFifos.tickFree where
  mem := h.mem
  buffers := by
    obtain ⟨ha, hr, hw⟩ := h.buffers
    refine ⟨?_, hr, ?_⟩
    · rw [State.tickFree_afifo, State.clearFifos_afifo]; split <;> simp [ha]
    · rw [State.tickFree_wfifo, State.clearFifos_wfifo]; split <;> simp [hw]
  clear := by
    constructor <;> intro hb <;> simp only [State.psw_tickFree, State.psw_clearFifos] at hb <;> simp [hb]
  pending := h.pending
  ports := h.ports
  dma := h.dma

/-! ### Steps that keep soundness, by the fields they write -/

/-- The buffers and the record of a delayed transfer. -/
@[simp] def State.queues (s : State) : List Long × List Long × List Long × Option Pending :=
  (s.afifo, s.ram, s.wfifo, s.pending)

/-- The ports and the note of DMA activity. -/
@[simp] def State.channels (s : State) : Port × Port × Bool := (s.port0, s.port1, s.dmaSeen)

namespace KeepsSound

theorem refl (s : State) : KeepsSound s s := ⟨id, id⟩

theorem trans {s t u : State} (h : KeepsSound s t) (g : KeepsSound t u) : KeepsSound s u :=
  ⟨g.sound ∘ h.sound, g.dmaSeen ∘ h.dmaSeen⟩

/-- Memory stays in its form, the buffers and the record stay, and the ports and the note keep what `Sound` says. -/
theorem of_ports {s t : State} (mem : Memory.wf s.mem = true → Memory.wf t.mem = true) (queues : t.queues = s.queues)
    (ports : s.port0.movingFits ∧ s.port1.movingFits → t.port0.movingFits ∧ t.port1.movingFits)
    (dma : dmaNoted s → dmaNoted t) (dmaSeen : s.dmaSeen = true → t.dmaSeen = true) : KeepsSound s t := by
  simp only [State.queues, Prod.mk.injEq] at queues
  obtain ⟨afifo, ram, wfifo, pending⟩ := queues
  refine ⟨fun h => ⟨mem h.mem, ?_, ?_, ports h.ports, dma h.dma⟩, dmaSeen⟩
  · simpa only [buffersFit, afifo, ram, wfifo] using h.buffers
  · simpa only [pendingFits, pending] using h.pending

/-- A write to memory that keeps its form, and to fields `Sound` does not speak of. -/
theorem of_mem {s t : State} (mem : Memory.wf s.mem = true → Memory.wf t.mem = true)
    (h : t.queues = s.queues ∧ t.channels = s.channels) : KeepsSound s t := by
  obtain ⟨queues, channels⟩ := h
  simp only [State.channels, Prod.mk.injEq] at channels
  obtain ⟨port0, port1, dmaSeen⟩ := channels
  refine of_ports mem queues (fun h => ?_) (fun h => ?_) (fun h => dmaSeen.trans h)
  · rwa [port0, port1]
  · simpa only [dmaNoted, dmaSeen, port0, port1] using h

/-- A write to fields `Sound` does not speak of. -/
theorem of_fields {s t : State} (h : t.mem = s.mem ∧ t.queues = s.queues ∧ t.channels = s.channels) :
    KeepsSound s t := by
  obtain ⟨mem, h⟩ := h
  exact of_mem (fun hm => by rw [mem, hm]) h

/-- A new record of a delayed transfer, or none (R475). -/
theorem of_pending (s : State) {q : Option Pending} (hq : ∀ d, q = some d → 1 ≤ d.n ∧ d.n ≤ 3) :
    KeepsSound s { s with pending := q } where
  sound h := ⟨h.mem, h.buffers, hq, h.ports, h.dma⟩
  dmaSeen := id

/-! ### Registers and memory -/

theorem setAr (s : State) (i : Ix) (v : Word) : KeepsSound s (s.setAr i v) := of_fields (by simp)

theorem applyUpd (s : State) (u : Option (Ix × Word)) : KeepsSound s (s.applyUpd u) := of_fields (by simp)

theorem raise (s : State) (k : Fin 9) : KeepsSound s (s.raise k) := of_fields (by simp)

theorem advance (s : State) (n : Word) : KeepsSound s (s.advance n) := of_fields (by simp)

theorem rightPart (s : State) (r : SRight) : KeepsSound s (s.rightPart r) := of_fields (by simp)

theorem write32 (s : State) (a v : Word) : KeepsSound s (s.write32 a v) := of_mem (State.wf_write32 a v) (by simp)

theorem write64 (s : State) (a : Word) (v : Long) : KeepsSound s (s.write64 a v) :=
  of_mem (State.wf_write64 a v) (by simp)

end KeepsSound

/-! ### Special registers (R108, R403) -/

/-- A write to the input counter leaves a started transfer words. -/
theorem Port.movingFits_setIcc {q : Port} (h : q.movingFits) (v : Word) : (q.setIcc v).movingFits := by
  obtain ⟨_, ho⟩ := h
  by_cases hv : v = 0 ∧ q.moving = some .input
  · simp [Port.movingFits, Port.setIcc, hv]
  · simp only [Port.movingFits, Port.setIcc, if_neg hv]
    exact ⟨fun hm hz => hv ⟨hz, hm⟩, ho⟩

/-- A write to the output counter leaves a started transfer words. -/
theorem Port.movingFits_setOcc {q : Port} (h : q.movingFits) (v : Word) : (q.setOcc v).movingFits := by
  obtain ⟨hi, _⟩ := h
  by_cases hv : v = 0 ∧ q.moving = some .output
  · simp [Port.movingFits, Port.setOcc, hv]
  · simp only [Port.movingFits, Port.setOcc, if_neg hv]
    exact ⟨hi, fun hm hz => hv ⟨hz, hm⟩⟩

/-- A counter written with a value that is not 0 is noted as DMA activity (R73). -/
theorem dmaNoted_writeSpec {s : State} (h : dmaNoted s) (r : SpecReg) (v : Word) : dmaNoted (s.writeSpec r v) := by
  intro hd
  rw [State.writeSpec_dmaSeen, Bool.or_eq_false_iff] at hd
  obtain ⟨hs, hv⟩ := hd
  obtain ⟨h0, h1, h2, h3⟩ := h hs
  cases r <;> simp_all [State.writeSpec, State.noteSetUp]

/-- A write to a special register leaves a started transfer words (R108). -/
theorem movingFits_writeSpec {s : State} (h : s.port0.movingFits ∧ s.port1.movingFits) (r : SpecReg) (v : Word) :
    (s.writeSpec r v).port0.movingFits ∧ (s.writeSpec r v).port1.movingFits := by
  obtain ⟨h0, h1⟩ := h
  cases r with
  | icc0 => exact ⟨Port.movingFits_setIcc h0 v, h1⟩
  | icc1 => exact ⟨h0, Port.movingFits_setIcc h1 v⟩
  | occ0 => exact ⟨Port.movingFits_setOcc h0 v, h1⟩
  | occ1 => exact ⟨h0, Port.movingFits_setOcc h1 v⟩
  | _ => exact ⟨h0, h1⟩

theorem KeepsSound.writeSpec (s : State) (r : SpecReg) (v : Word) : KeepsSound s (s.writeSpec r v) := by
  refine .of_ports (fun h => by simpa using h) (by simp) (fun h => movingFits_writeSpec h r v)
    (fun h => dmaNoted_writeSpec h r v) (fun h => ?_)
  rw [State.writeSpec_dmaSeen, h, Bool.true_or]

theorem KeepsSound.writeReg (s : State) (r : Reg) (v : Long) : KeepsSound s (s.writeReg r v) := by
  cases r with
  | ar n => exact .setAr ..
  | gr n => exact .of_fields ⟨rfl, rfl, rfl⟩
  | pair n => exact .of_fields ⟨rfl, rfl, rfl⟩
  | special x =>
    cases x with
    | one r => exact .writeSpec ..
    | two p => exact (KeepsSound.writeSpec ..).trans (.writeSpec ..)
  | vctl c => rcases c with c | c <;> cases c <;> exact .of_fields ⟨rfl, rfl, rfl⟩

/-! ### The left part of a scalar instruction -/

theorem KeepsSound.action {s t : State} {kind : XferKind} {target ret : Word}
    (h : s.action kind target ret = .ok t) : KeepsSound s t := by
  rcases State.action_ok h with ⟨_, rfl⟩ | ⟨_, _, rfl⟩ | ⟨_, _, rfl⟩ | ⟨_, _, rfl⟩
  · exact .of_fields (by simp)
  · exact (KeepsSound.write64 s s.sp (Long.ofHalves s.pswr ret)).trans (.of_fields (by simp))
  · exact .of_fields (by simp)
  · exact .of_fields (by simp)

theorem KeepsSound.store {s t : State} {wide : Bool} {a : Word} {v : Long} (h : s.store wide a v = .ok t) :
    KeepsSound s t := by
  rcases State.store_ok h with ⟨_, _, rfl⟩ | ⟨_, rfl⟩
  · exact .write64 ..
  · exact .write32 ..

theorem KeepsSound.doLoad {s t u : State} {dst : Reg} {m : Mode} {k : Word} (h : s.doLoad t dst m k = .ok u) :
    KeepsSound t u := by
  obtain ⟨v, _, rfl⟩ := State.doLoad_ok h
  exact (KeepsSound.applyUpd ..).trans (.writeReg ..)

theorem KeepsSound.doStore {s t u : State} {src : Reg} {m : Mode} {k : Word} (h : s.doStore t m src k = .ok u) :
    KeepsSound t u := by
  obtain ⟨v, hv, rfl⟩ := State.doStore_ok h
  exact (KeepsSound.store hv).trans (.applyUpd ..)

/-- A left part, with one to three delayed instructions where it is a delayed transfer. -/
theorem KeepsSound.leftPart {s t u : State} {l : SLeft} {k : Word} {n : Nat} (h : s.leftPart t l k n = .ok u)
    (h1 : 1 ≤ n) (h3 : n ≤ 3) : KeepsSound t u := by
  cases l with
  | load d m => exact .doLoad h
  | pop d => exact .doLoad h
  | store m r => exact .doStore h
  | push r => exact .doStore h
  | copy d r => injection h with h; subst h; exact .writeReg ..
  | setConst d => injection h with h; subst h; exact .writeReg ..
  | popDrop => injection h with h; subst h; exact .setAr ..
  | arMod o => injection h with h; subst h; exact .setAr ..
  | pswrSet => injection h with h; subst h; exact .of_fields (by simp)
  | pswrClear => injection h with h; subst h; exact .of_fields (by simp)
  | nul => injection h with h; subst h; exact .refl _
  | nulC => injection h with h; subst h; exact .refl _
  | xfer c d x =>
    rcases State.doXfer_ok h with ⟨_, _, rfl⟩ | ⟨_, _, rfl⟩ | ⟨_, _, _, h⟩ | ⟨_, _, _, rfl⟩
    · exact .refl _
    · exact .of_pending _ (by rintro d ⟨⟩; exact ⟨h1, h3⟩)
    · exact .action h
    · exact .refl _

/-! ### The end of an instruction (R58, R475) -/

theorem KeepsSound.clearFifos (s : State) : KeepsSound s s.clearFifos where
  sound h := { h.inv_end.toSound with dma := h.dma }
  dmaSeen := id

theorem KeepsSound.settle {s t : State} {q : Option Pending} (h : s.settle q = .ok t)
    (hq : ∀ d, q = some d → 1 ≤ d.n ∧ d.n ≤ 3) : KeepsSound s t := by
  have hnone : KeepsSound s { s with pending := none } := .of_pending s (by simp)
  rcases State.settle_ok h with ⟨_, rfl⟩ | ⟨d, hd, hn, rfl⟩ | ⟨d, _, _, _, ha⟩ | ⟨d, _, _, _, rfl⟩
  · exact .refl _
  · obtain ⟨_, h3⟩ := hq d hd
    exact .of_pending s (by rintro e ⟨⟩; dsimp only; omega)
  · exact hnone.trans (.action ha)
  · exact hnone

/-- An instruction that keeps soundness up to its end ends in the invariant. -/
theorem KeepsSound.finish {s u t : State} (hk : KeepsSound s u) (hs : Inv s) (h : u.finish s.pending = .next t) :
    Inv t ∧ (s.dmaSeen = true → t.dmaSeen = true) := by
  obtain ⟨v, hv, rfl⟩ := State.finish_next h
  have hv : KeepsSound s v := (hk.trans (.clearFifos u)).trans (.settle hv hs.pending)
  exact ⟨(hv.sound hs.toSound).inv_end, hv.dmaSeen⟩

/-! ### Vector instructions (R145, R155, R160, R636) -/

theorem KeepsSound.vectorWrite (s : State) (m : VMode) (ws : List Long) (k : Nat) (t : State) :
    KeepsSound t (s.vectorWrite m k ws t) := by
  induction ws generalizing k t with
  | nil => exact .refl t
  | cons w ws ih => exact (KeepsSound.write64 ..).trans (ih ..)

theorem KeepsSound.vectorStore (s : State) (m : VMem) (count : Nat) : KeepsSound s (s.vectorStore m count) := by
  cases m with
  | none => exact .refl s
  | load b v => exact .applyUpd ..
  | store v b => exact (KeepsSound.vectorWrite ..).trans (.applyUpd ..)

/-- A left part loads a word at each repetition, or none. -/
theorem State.length_vectorData_le (s : State) (m : VMem) (count : Nat) : (s.vectorData m count).length ≤ count := by
  cases m <;> simp [State.vectorData, State.vectorRead]

theorem State.length_ramAfter_le (s : State) (m : VMem) (data : List Long) (h : buffersFit s)
    (hd : data.length ≤ 32) : (s.ramAfter m data).length ≤ 32 := by
  obtain ⟨ha, hr, _⟩ := h
  unfold State.ramAfter
  split <;> assumption

theorem State.length_afifoAfter_le (s : State) (m : VMem) (r : VRight) (z : List Long) (h : buffersFit s)
    (hz : z.length ≤ 32) : (s.afifoAfter m r z).length ≤ 32 := by
  obtain ⟨ha, _, _⟩ := h
  unfold State.afifoAfter
  split
  · exact hz
  · split <;> simp [ha]

/-- The words a left part adds to wfifo are those the check of R636 counts. -/
theorem State.length_wfifoAfter (s : State) (m : VMem) (count : Nat) :
    (s.wfifoAfter m (s.vectorData m count)).length = s.wfifo.length + m.wfifoLoad count := by
  cases m with
  | none => simp [State.wfifoAfter, VMem.wfifoLoad, VMem.loadsWfifo]
  | store v b => simp [State.wfifoAfter, VMem.wfifoLoad, VMem.loadsWfifo]
  | load b v =>
    cases b <;>
      simp [State.wfifoAfter, VMem.wfifoLoad, VMem.loadsWfifo, State.vectorData, State.vectorRead]

/-- Where the check of R636 passes, wfifo has room for what is loaded once `ftw` has taken its words. -/
theorem State.wfifoBlocks_false {s : State} {loaded : Nat} {f : Bool} (h : s.wfifoBlocks loaded f = false) :
    s.wfifo.length + loaded - (if f then rows s.sb1 else 0) ≤ 32 := by
  simp only [State.wfifoBlocks, Bool.or_eq_false_iff, decide_eq_false_iff_not] at h
  omega

/-- A vector instruction that passes the check of wfifo leaves every buffer within 32 words. -/
theorem KeepsSound.vectorEffect {s : State} (n : Rep) (l : VLeft) (r : VRight)
    (hw : s.wfifoBlocks (l.mem.wfifoLoad (n.val + 1)) l.ftw = false) :
    KeepsSound s (s.vectorEffect (n.val + 1) l r) := by
  obtain ⟨_, _, _, _, _, e⟩ := State.vectorEffect_eq s (n.val + 1) l r
  have hcount : n.val + 1 ≤ 32 := n.isLt
  rw [e]
  refine ⟨fun h => ?_, id⟩
  exact {
    mem := ((KeepsSound.vectorStore s l.mem (n.val + 1)).sound h).mem
    buffers := by
      refine ⟨s.length_afifoAfter_le _ _ _ h.buffers ?_, s.length_ramAfter_le _ _ h.buffers ?_, ?_⟩
      · simp [State.vectorResults, hcount]
      · exact (s.length_vectorData_le _ _).trans hcount
      · rw [List.length_drop, State.length_wfifoAfter]
        exact State.wfifoBlocks_false hw
    pending := h.pending
    ports := h.ports
    dma := h.dma }

theorem KeepsSound.doWtw (s : State) : KeepsSound s s.doWtw := .of_fields (by simp)

/-- `ftw` takes words out of wfifo (R680). -/
theorem KeepsSound.doFtw (s : State) : KeepsSound s s.doFtw where
  sound h := {
    mem := h.mem
    buffers := by
      obtain ⟨ha, hr, hw⟩ := h.buffers
      exact ⟨ha, hr, by rw [State.doFtw_wfifo, List.length_drop]; omega⟩
    pending := h.pending
    ports := h.ports
    dma := h.dma }
  dmaSeen := id

/-- A blocked processor is in the invariant it was in (R845). -/
theorem Inv.block {s : State} (h : Inv s) : Inv s.block :=
  ⟨h.mem, h.buffers, h.clear, h.pending, h.ports, h.dma⟩

/-! ### Instructions -/

theorem runScalar_inv {p : Bool} {l : SLeft} {k : Word} {r : SRight} {s t : State} (hs : Inv s)
    (h : runScalar p l k r s = .next t) : Inv t ∧ (s.dmaSeen = true → t.dmaSeen = true) := by
  obtain ⟨_, _, u, hu, hf⟩ := runScalar_next h
  obtain ⟨h1, h3⟩ := slotsAt_fits s.params.delaySlots ⟨⟨.scalar p l r, k⟩, s.ipc, s.lensFrom 3 (s.ipc + l.len)⟩
  have hk : KeepsSound s u :=
    ((KeepsSound.rightPart s r).trans (.advance ..)).trans (.leftPart hu h1 h3)
  exact hk.finish hs hf

theorem runVector_inv {p : Bool} {n : Rep} {l : VLeft} {r : VRight} {s t : State} (hs : Inv s)
    (h : runVector p n l r s = .next t) : Inv t ∧ (s.dmaSeen = true → t.dmaSeen = true) := by
  obtain ⟨_, ⟨_, rfl⟩ | ⟨hw, ⟨_, hf⟩ | ⟨_, _, _, hf⟩⟩⟩ := runVector_next h
  · exact ⟨hs.block, id⟩
  · exact ((KeepsSound.raise ..).trans (.advance ..)).finish hs hf
  · exact ((KeepsSound.vectorEffect n l r hw).trans (.advance ..)).finish hs hf

theorem runBare_inv {p : Bool} {b : VBare} {s t : State} (hs : Inv s) (h : runBare p b s = .next t) :
    Inv t ∧ (s.dmaSeen = true → t.dmaSeen = true) := by
  rcases runBare_next h with ⟨_, _, rfl⟩ | ⟨u, hu, hf⟩
  · exact ⟨hs.block, id⟩
  · have hk : KeepsSound s u := by
      rcases hu with rfl | rfl | ⟨_, rfl | rfl⟩
      · exact .refl _
      · exact .doWtw s
      · exact .doFtw s
      · exact (KeepsSound.doFtw s).trans (.doWtw _)
    exact (hk.trans (.advance u 1)).finish hs hf

/-- Every instruction keeps the invariant and the note of DMA activity. -/
theorem exec_inv {i : Instr} {s t : State} (hs : Inv s) (h : exec i s = .next t) :
    Inv t ∧ (s.dmaSeen = true → t.dmaSeen = true) := by
  rw [exec_eq_run, run] at h
  split at h
  · exact runScalar_inv hs h
  · exact runVector_inv hs h
  · exact runBare_inv hs h

/-! ### Interrupts (R830) -/

/-- Taking an interrupt writes the frame, sp and fields the invariant does not speak of. -/
theorem KeepsSound.takeInterrupt {s t : State} {k : Fin 9} (h : s.takeInterrupt k = .ok t) : KeepsSound s t := by
  obtain ⟨_, rfl⟩ := State.takeInterrupt_ok h
  exact (KeepsSound.write64 s s.sp (Long.ofHalves s.pswr s.ipc)).trans (.of_fields (by simp))

theorem interruptStep_inv {s t : State} {k : Fin 9} (hs : Inv s) (h : s.interruptStep k = .next t) :
    Inv t ∧ (s.dmaSeen = true → t.dmaSeen = true) := by
  unfold State.interruptStep at h
  split at h
  · cases h
  · next u hu =>
    injection h with h; subst h
    have hk := KeepsSound.takeInterrupt hu
    obtain ⟨hm, hb, hc, hp, hq, hd⟩ := (hk.sound hs.toSound).inv_end
    exact ⟨⟨hm, hb, hc, hp, hq, hd⟩, hk.dmaSeen⟩

/-! ### Timers and ports (R104 to R108, R116) -/

theorem KeepsSound.tickTimer (s : State) (p : Unit2) : KeepsSound s (s.tickTimer p) := by
  rw [State.tickTimer_eq s p (s.timerMode p).1 (s.timerMode p).2 rfl]
  split
  · exact .refl s
  · split
    · split <;> exact .of_fields (by simp)
    · exact .of_fields (by simp)

/-- A port whose input channel has taken a word and counted (R104). -/
def Port.afterInput (q : Port) (rest : List Long) : Port :=
  { q with
    ica := q.ica + 2, icc := q.icc + 1, inQ := rest, dir := .input
    moving := if q.icc + 1 = 0 then none else some .input }

/-- A port whose input channel a word has initialized (R105). -/
def Port.afterInit (q : Port) (w : Long) (rest : List Long) : Port :=
  { q with
    ica := w.lo, icc := w.hi, inQ := rest, dir := .input
    moving := if w.hi = 0 then none else some .input }

/-- A port whose output channel has sent `v` and counted (R106). -/
def Port.afterOutput (q : Port) (v : Long) : Port :=
  { q with
    oca := q.oca + 2, occ := q.occ + 1, outQ := q.outQ ++ [v], dir := .output
    moving := if q.occ + 1 = 0 then none else some .output }

/-- The state after a channel of port p has counted to `n`: the port is `q`, and where `n` is 0 the request `k` is
raised (R104, R106, R107). -/
def State.channelStep (s : State) (p : Unit2) (q : Port) (n : Word) (k : Fin 9) : State :=
  { (if n = 0 then (s.setPort p q).raise k else s.setPort p q) with dmaSeen := true }

/-- A step of the input channel with a word offered, input allowed and a count (R104). -/
theorem State.dmaInput_count {s : State} {p : Unit2} {w : Long} {rest : List Long} (hq : (s.port p).inQ = w :: rest)
    (hoff : (s.portCtl p).2.1 = false) (hb : (s.port p).blocked .input = false) (hc : (s.port p).icc ≠ 0)
    (ho : (s.port p).ica.odd = false) : s.dmaInput p =
      .ok ((s.write64 (s.port p).ica w).channelStep p ((s.port p).afterInput rest) ((s.port p).icc + 1) (inReq p)) := by
  unfold State.dmaInput
  dsimp only
  rw [hq]
  dsimp only
  rw [if_neg (by simp [hoff, hb]), if_pos hc, if_neg (Bool.eq_false_iff.mp ho)]
  rfl

/-- A step of the input channel that initializes it (R105). -/
theorem State.dmaInput_init {s : State} {p : Unit2} {w : Long} {rest : List Long} (hq : (s.port p).inQ = w :: rest)
    (hoff : (s.portCtl p).2.1 = false) (hb : (s.port p).blocked .input = false) (hc : (s.port p).icc = 0)
    (he : (s.portCtl p).1 = true) : s.dmaInput p =
      .ok { s.setPort p ((s.port p).afterInit w rest) with dmaSeen := true } := by
  unfold State.dmaInput
  dsimp only
  rw [hq]
  dsimp only
  rw [if_neg (by simp [hoff, hb]), if_neg (by simp [hc]), if_pos he]
  rfl

/-- A step of the output channel with a count and output allowed (R106). -/
theorem State.dmaOutput_count {s : State} {p : Unit2} (hc : (s.port p).occ ≠ 0)
    (hoff : (s.portCtl p).2.2 = false) (hb : (s.port p).blocked .output = false)
    (ho : (s.port p).oca.odd = false) : s.dmaOutput p =
      .ok (s.channelStep p ((s.port p).afterOutput (s.read64 0 (s.port p).oca)) ((s.port p).occ + 1) (outReq p)) := by
  unfold State.dmaOutput
  dsimp only
  rw [if_neg (by simpa [hoff, hb] using hc), if_neg (Bool.eq_false_iff.mp ho)]
  rfl

/-- What a step of the input channel can do (R104, R105). -/
theorem State.dmaInput_ok {s t : State} {p : Unit2} (h : s.dmaInput p = .ok t) :
    t = s ∨
    (∃ w rest, t = (s.write64 (s.port p).ica w).channelStep p ((s.port p).afterInput rest) ((s.port p).icc + 1)
      (inReq p)) ∨
    (∃ w rest, t = { s.setPort p ((s.port p).afterInit w rest) with dmaSeen := true }) := by
  unfold State.dmaInput at h
  dsimp only at h
  split at h
  · exact .inl (by injection h with h; exact h.symm)
  · next w rest _ =>
    split at h
    · exact .inl (by injection h with h; exact h.symm)
    · split at h
      · split at h
        · cases h
        · exact .inr (.inl ⟨w, rest, by injection h with h; exact h.symm⟩)
      · split at h
        · exact .inr (.inr ⟨w, rest, by injection h with h; exact h.symm⟩)
        · exact .inl (by injection h with h; exact h.symm)

/-- What a step of the output channel can do (R106). -/
theorem State.dmaOutput_ok {s t : State} {p : Unit2} (h : s.dmaOutput p = .ok t) :
    t = s ∨ ∃ v, t = s.channelStep p ((s.port p).afterOutput v) ((s.port p).occ + 1) (outReq p) := by
  unfold State.dmaOutput at h
  dsimp only at h
  split at h
  · exact .inl (by injection h with h; exact h.symm)
  · split at h
    · cases h
    · exact .inr ⟨_, by injection h with h; exact h.symm⟩

/-- A transfer that has counted is over, or has words left (R108). -/
theorem Port.movingFits_afterInput (q : Port) (rest : List Long) : (q.afterInput rest).movingFits := by
  simp [Port.movingFits, Port.afterInput]

theorem Port.movingFits_afterInit (q : Port) (w : Long) (rest : List Long) : (q.afterInit w rest).movingFits := by
  simp [Port.movingFits, Port.afterInit]

theorem Port.movingFits_afterOutput (q : Port) (v : Long) : (q.afterOutput v).movingFits := by
  simp [Port.movingFits, Port.afterOutput]

/-- A port replaced by one whose started transfer has words left, with DMA activity noted. -/
theorem KeepsSound.setPort (s : State) (p : Unit2) {q : Port} (hq : q.movingFits) :
    KeepsSound s { s.setPort p q with dmaSeen := true } := by
  refine .of_ports (fun h => by simpa using h) (by simp) (fun ⟨h0, h1⟩ => ?_) (fun _ h => by cases h) (fun _ => rfl)
  cases p
  · exact ⟨hq, h1⟩
  · exact ⟨h0, hq⟩

theorem KeepsSound.channelStep (s : State) (p : Unit2) {q : Port} (hq : q.movingFits) (n : Word) (k : Fin 9) :
    KeepsSound s (s.channelStep p q n k) := by
  unfold State.channelStep
  split
  · exact (KeepsSound.setPort s p hq).trans (.raise _ k)
  · exact .setPort s p hq

theorem KeepsSound.dmaInput {s t : State} {p : Unit2} (h : s.dmaInput p = .ok t) : KeepsSound s t := by
  rcases State.dmaInput_ok h with rfl | ⟨w, rest, rfl⟩ | ⟨w, rest, rfl⟩
  · exact .refl _
  · exact (KeepsSound.write64 ..).trans (.channelStep _ p (Port.movingFits_afterInput ..) ..)
  · exact .setPort s p (Port.movingFits_afterInit ..)

theorem KeepsSound.dmaOutput {s t : State} {p : Unit2} (h : s.dmaOutput p = .ok t) : KeepsSound s t := by
  rcases State.dmaOutput_ok h with rfl | ⟨v, rfl⟩
  · exact .refl _
  · exact .channelStep s p (Port.movingFits_afterOutput ..) ..

/-- A word offered changes no counter and no transfer in progress. -/
theorem KeepsSound.offer (s : State) (p : Unit2) (w : Long) : KeepsSound s (s.offer p w) := by
  cases p <;> exact .of_ports id rfl id id id

/-! ### Events of the schedule -/

/-- What an event that is no RESET keeps. -/
theorem KeepsSound.event {s t : State} {e : Input} (h : s.event e = .ok t) (he : e ≠ .reset) : KeepsSound s t := by
  cases e with
  | core => injection h with h; subst h; exact .refl _
  | timerClock => injection h with h; subst h; exact (KeepsSound.tickTimer s .u0).trans (.tickTimer _ .u1)
  | portOffer p w => injection h with h; subst h; exact .offer s p w
  | dmaIn p => exact .dmaInput h
  | dmaOut p => exact .dmaOutput h
  | extInt => injection h with h; subst h; exact .raise s 5
  | reset => exact absurd rfl he

/-- RESET keeps memory and puts everything else the invariant speaks of at its reset value (R870). -/
theorem Sound.resetEvent {s : State} (h : Sound s) : Sound s.resetEvent where
  mem := h.mem
  buffers := by simp [buffersFit, State.resetEvent, State.reset]
  pending := by simp [pendingFits, State.resetEvent, State.reset]
  ports := by simp [Port.movingFits, State.resetEvent, Port.atReset]
  dma := fun _ => ⟨rfl, rfl, rfl, rfl⟩

theorem Sound.event {s t : State} {e : Input} (hs : Sound s) (h : s.event e = .ok t) : Sound t := by
  by_cases he : e = .reset
  · subst he; injection h with h; subst h; exact hs.resetEvent
  · exact (KeepsSound.event h he).sound hs

/-- The invariant does not speak of the schedule. -/
theorem Inv.setInputs {s : State} (h : Inv s) (rest : List Input) : Inv { s with inputs := rest } :=
  ⟨h.mem, h.buffers, h.clear, h.pending, h.ports, h.dma⟩

/-! ### Steps -/

theorem coreStep_inv {s t : State} (hs : Inv s) (h : coreStep s = .next t) :
    Inv t ∧ (s.dmaSeen = true → t.dmaSeen = true) := by
  rcases coreStep_next h with ⟨_, rfl⟩ | ⟨_, k, _, h⟩ | ⟨_, _, i, _, h⟩
  · exact ⟨hs, id⟩
  · exact interruptStep_inv hs h
  · exact exec_inv hs h

/-- The step of another agent that answers a next state. -/
theorem finishEvent_next {r : Except Refusal State} {t : State} (h : finishEvent r = .next t) :
    ∃ u, r = .ok u ∧ t = u.clearFifos.tickFree := by
  unfold finishEvent at h
  split at h
  · cases h
  · next u => exact ⟨u, rfl, by injection h with h; exact h.symm⟩

/-- What a step can do: a step of the processor, or an event of the schedule (R221). -/
theorem step_next {s t : State} (h : step s = .next t) :
    coreStep s = .next t ∨ (∃ rest, coreStep { s with inputs := rest } = .next t) ∨
    ∃ e rest u, s.inputs = e :: rest ∧ ({ s with inputs := rest } : State).event e = .ok u ∧
      t = u.clearFifos.tickFree := by
  unfold step at h
  split at h
  · exact .inl h
  · exact .inr (.inl ⟨_, h⟩)
  · next e rest _ hin =>
    obtain ⟨u, hu, rfl⟩ := finishEvent_next h
    exact .inr (.inr ⟨e, rest, u, hin, hu, rfl⟩)

/-- Settles O10: every step keeps `Inv`, by the operations it is made of; only RESET is not among those that keep the
note of DMA activity. -/
theorem invStep : Obligations.InvStep := by
  intro s t hs h
  rcases step_next h with h | ⟨rest, h⟩ | ⟨e, rest, u, hin, hu, rfl⟩
  · obtain ⟨hi, hd⟩ := coreStep_inv hs h
    exact ⟨hi, fun hseen _ => hd hseen⟩
  · obtain ⟨hi, hd⟩ := coreStep_inv (hs.setInputs rest) h
    exact ⟨hi, fun hseen _ => hd hseen⟩
  · refine ⟨((hs.setInputs rest).toSound.event hu).inv_end, fun hseen hnot => ?_⟩
    have he : e ≠ .reset := by rintro rfl; exact hnot rest hin
    exact (KeepsSound.event hu he).dmaSeen hseen

/-- Settles O9: at reset memory lists nothing, the buffers are empty, and no transfer is pending or started. -/
theorem invReset : Obligations.InvReset where
  mem := State.wf_reset
  buffers := by simp [buffersFit, State.reset]
  clear := by simp [clearBitsHold, State.reset]
  pending := by simp [pendingFits, State.reset]
  ports := by simp [Port.movingFits, State.reset, Port.atReset]
  dma := fun _ => ⟨rfl, rfl, rfl, rfl⟩

end Sys2Proof.Machine
end

section
/-! PROOFS. The other agents: the obligations on timers, ports, RESET and the external interrupt. -/

namespace Sys2Proof.Machine

open Sys2Proof

/-! ### Steps of another agent -/

/-- A step that takes an event of the schedule (R221). -/
theorem step_event {s t : State} {e : Input} {rest : List Input} (hin : s.inputs = e :: rest) (he : e ≠ .core)
    (ht : ({ s with inputs := rest } : State).event e = .ok t) : step s = .next t.clearFifos.tickFree := by
  unfold step
  rw [hin]
  cases e with
  | core => exact absurd rfl he
  | _ => simp only [ht, finishEvent]

/-! ### Timers (R57, R116) -/

/-- What one tick makes of a timer with mode bits TM = `a`, TE = `b`. -/
def Timer.ticked (q : Timer) (a b : Bool) : Timer :=
  if (a = false ∧ b = false) ∨ q.stopped = true then q
  else if q.count = 0xFFFFFFFF then (if a then ⟨q.reload, q.reload, false⟩ else ⟨0, q.reload, true⟩)
  else ⟨q.count + 1, q.reload, false⟩

/-- Whether one tick of a timer raises its request. -/
def Timer.ends (q : Timer) (a b : Bool) : Bool := !q.stopped && (a || b) && q.count == 0xFFFFFFFF

/-- A request raised where `b` says so. -/
def State.raiseIf (s : State) (b : Bool) (k : Fin 9) : State := if b then s.raise k else s

/-- The state after one tick of timer p with mode bits `a` and `b`. -/
def State.ticked (s : State) (p : Unit2) (a b : Bool) : State :=
  (s.setTimer p ((s.timer p).ticked a b)).raiseIf ((s.timer p).ends a b) (timerReq p)

/-- A tick writes the timer and its request only. -/
theorem State.tickTimer_eq_ticked (s : State) (p : Unit2) (a b : Bool) (h : s.timerMode p = (a, b)) :
    s.tickTimer p = s.ticked p a b := by
  have hself : s.setTimer p (s.timer p) = s := by cases p <;> rfl
  rw [State.tickTimer_eq s p a b h]
  unfold State.ticked State.raiseIf Timer.ends Timer.ticked
  by_cases hstop : (s.timer p).stopped = true
  · simp [hstop, hself]
  · by_cases hcount : (s.timer p).count = 0xFFFFFFFF#32
    · cases a <;> cases b <;> simp [hstop, hcount, hself]
    · cases a <;> cases b <;> simp [hstop, hcount, hself]

section
variable (s : State) (b : Bool) (k : Fin 9)

@[simp] theorem State.raiseIf_ipc : (s.raiseIf b k).ipc = s.ipc := by cases b <;> rfl
@[simp] theorem State.raiseIf_pswr : (s.raiseIf b k).pswr = s.pswr := by cases b <;> rfl
@[simp] theorem State.raiseIf_inputs : (s.raiseIf b k).inputs = s.inputs := by cases b <;> rfl
@[simp] theorem State.raiseIf_mem : (s.raiseIf b k).mem = s.mem := by cases b <;> rfl
@[simp] theorem State.raiseIf_timer0 : (s.raiseIf b k).timer0 = s.timer0 := by cases b <;> rfl
@[simp] theorem State.raiseIf_timer1 : (s.raiseIf b k).timer1 = s.timer1 := by cases b <;> rfl

/-- The requests after one was raised, or none. -/
theorem State.getLsbD_raiseIf (n : Nat) :
    (s.raiseIf b k).ireq.getLsbD n = (s.ireq.getLsbD n || (decide (n = k.val) && b)) := by
  have hk := k.isLt
  cases b
  · simp [State.raiseIf]
  · by_cases h : n = k.val <;> simp [State.raiseIf, State.raise, h, hk, eq_comm]

end

/-- What a timer does at a TimerClock event, in each mode (R57, R116). -/
theorem Timer.ticked_cases (q : Timer) (a b : Bool) :
    (a = false → b = false ∨ q.stopped = true → q.ticked a b = q) ∧
    (q.stopped = true → q.ticked a b = q) ∧
    (q.stopped = false → a = true ∨ b = true → q.count ≠ 0xFFFFFFFF → q.ticked a b = ⟨q.count + 1, q.reload, false⟩) ∧
    (q.stopped = false → a = true → q.count = 0xFFFFFFFF → q.ticked a b = ⟨q.reload, q.reload, false⟩) ∧
    (q.stopped = false → a = false → b = true → q.count = 0xFFFFFFFF → q.ticked a b = ⟨0, q.reload, true⟩) := by
  unfold Timer.ticked
  refine ⟨?_, ?_, ?_, ?_, ?_⟩
  · rintro rfl (rfl | h)
    · simp
    · simp [h]
  · intro h; simp [h]
  · rintro h hab hc
    have hc : ¬ q.count = 0xFFFFFFFF#32 := hc
    rcases hab with rfl | rfl <;> simp [h, hc]
  · rintro h rfl hc; simp [h, hc]
  · rintro h rfl rfl hc; simp [h, hc]

/-- The state after a tick of each timer, in the modes pswr gives them. -/
def State.tickBoth (s : State) : State := (s.ticked .u0 (s.psw 19) (s.psw 18)).ticked .u1 (s.psw 17) (s.psw 16)

theorem State.event_timerClock (s : State) : s.event .timerClock = .ok s.tickBoth := by
  have h0 := s.tickTimer_eq_ticked .u0 (s.psw 19) (s.psw 18) rfl
  have h1 := (s.ticked .u0 (s.psw 19) (s.psw 18)).tickTimer_eq_ticked .u1 (s.psw 17) (s.psw 16)
    (by simp [State.timerMode, State.ticked, State.psw])
  rw [State.tickBoth, ← h1, ← h0]
  rfl

theorem State.tickBoth_timer0 (s : State) : s.tickBoth.timer0 = s.timer0.ticked (s.psw 19) (s.psw 18) := by
  simp [State.tickBoth, State.ticked, State.setTimer, State.timer]

theorem State.tickBoth_timer1 (s : State) : s.tickBoth.timer1 = s.timer1.ticked (s.psw 17) (s.psw 16) := by
  simp [State.tickBoth, State.ticked, State.setTimer, State.timer]

/-- The requests after both ticks: timer 0 raises request 8, timer 1 request 0 (R801, R809). -/
theorem State.getLsbD_tickBoth (s : State) (n : Nat) : s.tickBoth.ireq.getLsbD n = (s.ireq.getLsbD n ||
    (decide (n = 8) && s.timer0.ends (s.psw 19) (s.psw 18)) ||
    (decide (n = 0) && s.timer1.ends (s.psw 17) (s.psw 16))) := by
  simp [State.tickBoth, State.ticked, State.getLsbD_raiseIf, State.setTimer, State.timer, timerReq]

/-- Settles O58: the event is two ticks, and each writes its timer and its request only. -/
theorem timerTick : Obligations.TimerTick := by
  intro s rest hin
  let u : State := { s with inputs := rest }
  refine ⟨u.tickBoth.clearFifos.tickFree, step_event hin (by simp) u.event_timerClock, ?_, ?_, ?_, ?_, ?_, ?_⟩
  · simp [u, State.tickBoth, State.ticked]
  · simp [u, State.tickBoth, State.ticked]
  · simp [u, State.tickBoth, State.ticked]
  · intro e he
    simp only [List.mem_cons, List.not_mem_nil, or_false] at he
    rcases he with rfl | rfl
    · rw [State.tickFree_timer0, State.clearFifos_timer0, State.tickBoth_timer0]
      exact s.timer0.ticked_cases (s.psw 19) (s.psw 18)
    · rw [State.tickFree_timer1, State.clearFifos_timer1, State.tickBoth_timer1]
      exact s.timer1.ticked_cases (s.psw 17) (s.psw 16)
  · intro n
    rw [State.tickFree_ireq, State.clearFifos_ireq, State.getLsbD_tickBoth]
    simp only [Timer.ends, Bool.and_assoc]
    rfl
  · intro x
    simp [u, State.tickBoth, State.ticked]

/-! ### Ports (R104 to R108) -/

@[simp] theorem State.port_setPort_self (s : State) (p : Unit2) (q : Port) : (s.setPort p q).port p = q := by
  cases p <;> rfl

@[simp] theorem State.port_write64 (s : State) (a : Word) (v : Long) (p : Unit2) :
    (s.write64 a v).port p = s.port p := by
  cases p <;> simp [State.port]

section
variable (s : State) (p : Unit2) (q : Port) (n : Word) (k : Fin 9)

@[simp] theorem State.channelStep_ipc : (s.channelStep p q n k).ipc = s.ipc := by
  unfold State.channelStep; split <;> simp
@[simp] theorem State.channelStep_pswr : (s.channelStep p q n k).pswr = s.pswr := by
  unfold State.channelStep; split <;> simp
@[simp] theorem State.channelStep_inputs : (s.channelStep p q n k).inputs = s.inputs := by
  unfold State.channelStep; split <;> simp
@[simp] theorem State.channelStep_mem : (s.channelStep p q n k).mem = s.mem := by
  unfold State.channelStep; split <;> simp
@[simp] theorem State.channelStep_dmaSeen : (s.channelStep p q n k).dmaSeen = true := rfl

/-- A count that ends raises the request (R107). -/
theorem State.channelStep_ireq :
    (s.channelStep p q n k).ireq = if n = 0 then s.ireq ||| BitVec.twoPow 9 k else s.ireq := by
  unfold State.channelStep
  split <;> simp [State.raise]

/-- The port after the step, in the state the event's step ends in. -/
theorem State.port_channelStep : (s.channelStep p q n k).clearFifos.tickFree.port p = q := by
  unfold State.channelStep
  split <;> cases p <;> rfl

end

/-- The low word of a long word written, backed or not (R230). -/
theorem State.wordStored_write64_lo (s : State) (a : Word) (v : Long) : wordStored a v.lo s (s.write64 a v) := by
  unfold wordStored State.write64
  rw [State.word_write32, if_neg (fun h => Word.add_one_ne a h.1.symm), State.word_write32]
  simp

/-- The high word of a long word written, backed or not (R230). -/
theorem State.wordStored_write64_hi (s : State) (a : Word) (v : Long) :
    wordStored (a + 1) v.hi s (s.write64 a v) := by
  have hlow : Memory.word (s.write32 a v.lo).mem (a + 1) = Memory.word s.mem (a + 1) := by
    rw [State.word_write32, if_neg fun h => Word.add_one_ne a h.1]
  unfold wordStored State.write64
  rw [State.word_write32, State.backed_write32, hlow]
  simp

/-- A port whose transfer in progress is not the other way is not held back (R108). -/
theorem Port.blocked_input_of_ne {q : Port} (h : q.moving ≠ some .output) : q.blocked .input = false := by
  simp [Port.blocked, h]

theorem Port.blocked_output_of_ne {q : Port} (h : q.moving ≠ some .input) : q.blocked .output = false := by
  simp [Port.blocked, h]

/-- A transfer the other way, with words left, holds the input channel back (R108). -/
theorem State.dmaInput_blocked {s : State} {p : Unit2} (h : (s.port p).blocked .input = true) :
    s.dmaInput p = .ok s := by
  unfold State.dmaInput
  dsimp only
  split
  · rfl
  · rw [if_pos (by simp [h])]

/-- A transfer the other way, with words left, holds the output channel back (R108). -/
theorem State.dmaOutput_blocked {s : State} {p : Unit2} (h : (s.port p).blocked .output = true) :
    s.dmaOutput p = .ok s := by
  unfold State.dmaOutput
  dsimp only
  rw [if_pos (by simp [h])]

/-- A step of the input channel with a count (R104, R107). -/
theorem dmaInput_count_step (s : State) (p : Unit2) (rest : List Input) (w : Long) (ws : List Long)
    (hin : s.inputs = .dmaIn p :: rest) (hq : (s.port p).inQ = w :: ws) (hoff : (s.portCtl p).2.1 = false)
    (hm : (s.port p).moving ≠ some .output) (hc : (s.port p).icc ≠ 0) (ho : (s.port p).ica.odd = false) :
    ∃ t, step s = .next t ∧ t.inputs = rest ∧ wordStored (s.port p).ica w.lo s t ∧
      wordStored ((s.port p).ica + 1) w.hi s t ∧ sameMemoryBut (s.port p).ica 2 s t ∧
      t.port p = (s.port p).afterInput ws ∧ t.dmaSeen = true ∧
      t.ireq = (if (s.port p).icc + 1 = 0 then s.ireq ||| BitVec.twoPow 9 (inReq p) else s.ireq) ∧
      t.ipc = s.ipc ∧ t.pswr = s.pswr := by
  let u : State := { s with inputs := rest }
  have hp : u.port p = s.port p := by cases p <;> rfl
  have hctl : u.portCtl p = s.portCtl p := by cases p <;> rfl
  have hev : u.event (.dmaIn p) = .ok _ := State.dmaInput_count (hp ▸ hq) (hctl ▸ hoff)
    (Port.blocked_input_of_ne (hp ▸ hm)) (hp ▸ hc) (hp ▸ ho)
  rw [hp] at hev
  have hmem : ∀ q n k, ((u.write64 (s.port p).ica w).channelStep p q n k).clearFifos.tickFree.mem =
      (u.write64 (s.port p).ica w).mem := by simp
  refine ⟨_, step_event hin (by simp) hev, ?_, ?_, ?_, ?_, ?_, ?_, ?_, ?_, ?_⟩
  · simp [u]
  · unfold wordStored; rw [hmem]; exact u.wordStored_write64_lo _ w
  · unfold wordStored; rw [hmem]; exact u.wordStored_write64_hi _ w
  · intro x hx; rw [hmem]; exact u.byteAt_write64 _ w x hx
  · exact State.port_channelStep ..
  · simp
  · simp [State.channelStep_ireq, u]
  · simp [u]
  · simp [u]

/-- A step of the input channel under external initialization (R105). -/
theorem dmaInput_init_step (s : State) (p : Unit2) (rest : List Input) (w : Long) (ws : List Long)
    (hin : s.inputs = .dmaIn p :: rest) (hq : (s.port p).inQ = w :: ws) (hoff : (s.portCtl p).2.1 = false)
    (hm : (s.port p).moving ≠ some .output) (hc : (s.port p).icc = 0) (he : (s.portCtl p).1 = true) :
    ∃ t, step s = .next t ∧ t.inputs = rest ∧ t.port p = (s.port p).afterInit w ws ∧ sameMemory s t ∧
      t.ireq = s.ireq ∧ t.dmaSeen = true ∧ t.ipc = s.ipc ∧ t.pswr = s.pswr := by
  let u : State := { s with inputs := rest }
  have hp : u.port p = s.port p := by cases p <;> rfl
  have hctl : u.portCtl p = s.portCtl p := by cases p <;> rfl
  have hev : u.event (.dmaIn p) = .ok _ := State.dmaInput_init (hp ▸ hq) (hctl ▸ hoff)
    (Port.blocked_input_of_ne (hp ▸ hm)) (hp ▸ hc) (hctl ▸ he)
  rw [hp] at hev
  refine ⟨_, step_event hin (by simp) hev, ?_, ?_, fun x => ?_, ?_, ?_, ?_, ?_⟩
  · simp [u]
  · cases p <;> rfl
  · simp [u]
  · simp [u]
  · rfl
  · simp [u]
  · simp [u]

/-- A step of the output channel with a count (R106, R107). -/
theorem dmaOutput_count_step (s : State) (p : Unit2) (rest : List Input) (hin : s.inputs = .dmaOut p :: rest)
    (hc : (s.port p).occ ≠ 0) (hoff : (s.portCtl p).2.2 = false) (hm : (s.port p).moving ≠ some .input)
    (ho : (s.port p).oca.odd = false) :
    ∃ t, step s = .next t ∧ t.inputs = rest ∧ t.port p = (s.port p).afterOutput (s.read64 0 (s.port p).oca) ∧
      t.dmaSeen = true ∧
      t.ireq = (if (s.port p).occ + 1 = 0 then s.ireq ||| BitVec.twoPow 9 (outReq p) else s.ireq) ∧
      sameMemory s t ∧ t.ipc = s.ipc ∧ t.pswr = s.pswr := by
  let u : State := { s with inputs := rest }
  have hp : u.port p = s.port p := by cases p <;> rfl
  have hctl : u.portCtl p = s.portCtl p := by cases p <;> rfl
  have hev : u.event (.dmaOut p) = .ok _ := State.dmaOutput_count (hp ▸ hc) (hctl ▸ hoff)
    (Port.blocked_output_of_ne (hp ▸ hm)) (hp ▸ ho)
  rw [hp] at hev
  refine ⟨_, step_event hin (by simp) hev, ?_, ?_, ?_, ?_, fun x => ?_, ?_, ?_⟩
  · simp [u]
  · exact State.port_channelStep ..
  · simp
  · simp [State.channelStep_ireq, u]
  · simp [u]
  · simp [u]
  · simp [u]

/-- A step of a channel that changes nothing. -/
theorem idle_step {s : State} {e : Input} {rest : List Input} (p : Unit2) (hin : s.inputs = e :: rest)
    (he : e ≠ .core) (hev : ({ s with inputs := rest } : State).event e = .ok { s with inputs := rest }) :
    ∃ t, step s = .next t ∧ t.inputs = rest ∧ t.port p = s.port p ∧ sameMemory s t ∧ t.ireq = s.ireq :=
  ⟨_, step_event hin he hev, rfl, by cases p <;> rfl, fun _ => rfl, rfl⟩

/-- Settles O59: a step with a count, one that initializes, and one that is held back. -/
theorem dmaSteps : Obligations.DmaSteps := by
  refine ⟨?_, ?_, ?_⟩
  · rintro s p rest q w ws hin rfl hq hoff hm
    have hoff : (s.portCtl p).2.1 = false := by cases p <;> exact hoff
    refine ⟨fun hc ho => ?_, fun hc he => ?_⟩
    · obtain ⟨t, hs, hi, hlo, hhi, hmem, hp, hd, hr, hpc, hps⟩ :=
        dmaInput_count_step s p rest w ws hin hq hoff hm hc ho
      refine ⟨t, hs, hi, hlo, hhi, hmem, ?_⟩
      rw [hp]
      exact ⟨rfl, rfl, rfl, rfl, rfl, rfl, rfl, rfl, hd, by cases p <;> exact hr, hpc, hps⟩
    · have he : (s.portCtl p).1 = true := by cases p <;> exact he
      obtain ⟨t, hs, hi, hp, hmem, hr, hd, hpc, hps⟩ := dmaInput_init_step s p rest w ws hin hq hoff hm hc he
      refine ⟨t, hs, hi, ?_⟩
      rw [hp]
      exact ⟨rfl, rfl, rfl, hmem, hr, hd, hpc, hps⟩
  · rintro s p rest q hin rfl hc hoff hm ho
    have hoff : (s.portCtl p).2.2 = false := by cases p <;> exact hoff
    obtain ⟨t, hs, hi, hp, hd, hr, hmem, hpc, hps⟩ := dmaOutput_count_step s p rest hin hc hoff hm ho
    refine ⟨t, hs, hi, ?_⟩
    rw [hp]
    exact ⟨rfl, rfl, rfl, rfl, rfl, rfl, rfl, rfl, hd, by cases p <;> exact hr, hmem, hpc, hps⟩
  · rintro s p rest q rfl (⟨hin, hm, hc⟩ | ⟨hin, hm, hc⟩)
    · have hb : (s.port p).blocked .input = true := by simpa [Port.blocked, hm] using hc
      refine idle_step p hin (by simp) (State.dmaInput_blocked ?_)
      cases p <;> exact hb
    · have hb : (s.port p).blocked .output = true := by simpa [Port.blocked, hm] using hc
      refine idle_step p hin (by simp) (State.dmaOutput_blocked ?_)
      cases p <;> exact hb

/-! ### RESET and the external interrupt (R804, R870) -/

/-- DMAR is bits 29:26 of intr (R73). -/
theorem State.intr_dmar (s : State) : s.intr.extractLsb' 26 4 = s.dmar := by
  apply BitVec.eq_of_getLsbD_eq
  intro i hi
  have hi' : 26 + i - 9 - 1 - 1 - 1 - 1 - 5 - 5 - 1 - 1 - 1 = i := by omega
  simp only [State.intr, BitVec.getLsbD_extractLsb', BitVec.getLsbD_append, hi, decide_true, Bool.true_and]
  iterate 10 rw [if_neg (by omega)]
  rw [if_pos (by omega), hi']

/-- Settles O60: RESET computes to the values of R180, and the external interrupt raises request 5 only. -/
theorem resetAndExtInt : Obligations.ResetAndExtInt := by
  refine ⟨fun s rest hin => ?_, fun s rest hin _ => ?_⟩
  · refine ⟨_, step_event hin (by simp) rfl, rfl, rfl, rfl, rfl, ?_, rfl, ?_, rfl, rfl, ?_, rfl, rfl, rfl, rfl⟩
    · simp [State.resetEvent, State.reset]
    · simp [State.resetEvent, State.reset]
    · exact State.intr_dmar _
  · refine ⟨_, step_event hin (by simp) rfl, rfl, rfl, rfl, rfl, fun _ => rfl, fun _ => rfl, fun _ => rfl, ?_, ?_⟩
    · exact ⟨rfl, rfl, rfl, rfl, rfl, rfl, rfl, rfl, rfl, rfl, rfl, rfl⟩
    · exact ⟨rfl, rfl, rfl, rfl, rfl, rfl, rfl, rfl, rfl, rfl, rfl, rfl, rfl⟩

end Sys2Proof.Machine
end

section
/-! PROOFS. The elements of a long word: where they end, that they cover the word, and what a word packed from
elements holds in each; then the activation functions element by element. -/

namespace Sys2Proof.Machine

open Sys2Proof

/-! ### Where elements end and what they cover (R128, R133, R135) -/

/-- Elements `es` from bit `lo` to bit `hi`: each has a bit, one comes after another, and every bit is in one. -/
structure Tiles (es : List (Nat × Nat)) (lo hi : Nat) : Prop where
  within : ∀ e ∈ es, lo ≤ e.1 ∧ 0 < e.2 ∧ e.1 + e.2 ≤ hi
  ordered : es.Pairwise fun d e => d.1 + d.2 ≤ e.1
  covers : ∀ b, lo ≤ b → b < hi → ∃ e ∈ es, e.1 ≤ b ∧ b < e.1 + e.2

theorem Tiles.nil (lo : Nat) : Tiles [] lo lo := ⟨by simp, .nil, fun b _ _ => by omega⟩

/-- An element put before those that begin where it ends. -/
theorem Tiles.cons {es : List (Nat × Nat)} {lo mid hi : Nat} (h : Tiles es mid hi) (hlo : lo < mid) (hhi : mid ≤ hi) :
    Tiles ((lo, mid - lo) :: es) lo hi where
  within := by
    intro e he
    rcases List.mem_cons.mp he with rfl | he
    · dsimp only; omega
    · obtain ⟨h1, h2, h3⟩ := h.within e he
      omega
  ordered := List.pairwise_cons.mpr ⟨fun e he => by have := (h.within e he).1; dsimp only; omega, h.ordered⟩
  covers := by
    intro b hb1 hb2
    by_cases hb : b < mid
    · exact ⟨(lo, mid - lo), by simp, hb1, by dsimp only; omega⟩
    · obtain ⟨e, he, hbe⟩ := h.covers b (by omega) hb2
      exact ⟨e, by simp [he], hbe⟩

/-- Elements from bit `lo` on, with `rest` bits left from bit `i`, are tiles up to the end of these bits. -/
theorem elementsFrom_tiles (isEnd : Nat → Bool) (rest i lo : Nat) (hlo : lo ≤ i) (hr : rest = 0 → lo = i) :
    Tiles (elementsFrom isEnd rest i lo) lo (i + rest) := by
  induction rest generalizing i lo with
  | zero => obtain rfl := hr rfl; exact .nil lo
  | succ rest ih =>
    rw [elementsFrom, show i + (rest + 1) = i + 1 + rest by omega]
    split
    · exact (ih (i + 1) (i + 1) le_rfl fun _ => rfl).cons (by omega) (by omega)
    · next hend =>
      refine ih (i + 1) lo (by omega) fun h0 => ?_
      simp [h0] at hend

/-- The elements of a long word tile it. -/
theorem elements_tiles (isEnd : Nat → Bool) : Tiles (elements isEnd) 0 64 :=
  elementsFrom_tiles isEnd 64 0 0 le_rfl (by simp)

/-- Where the elements from bit `lo` on end: where `isEnd` says so, and at the last bit. -/
theorem elementsFrom_end_iff (isEnd : Nat → Bool) (rest i lo : Nat) (hlo : lo ≤ i) (b : Nat) :
    (∃ e ∈ elementsFrom isEnd rest i lo, e.1 + e.2 = b + 1) ↔
      i ≤ b ∧ b < i + rest ∧ (isEnd b = true ∨ b + 1 = i + rest) := by
  induction rest generalizing i lo with
  | zero => simp [elementsFrom]; omega
  | succ rest ih =>
    have hstep : (i + 1 ≤ b ∧ b < i + 1 + rest ∧ (isEnd b = true ∨ b + 1 = i + 1 + rest)) ↔
        b ≠ i ∧ i ≤ b ∧ b < i + (rest + 1) ∧ (isEnd b = true ∨ b + 1 = i + (rest + 1)) := by
      rw [show i + 1 + rest = i + (rest + 1) by omega]
      constructor <;> rintro ⟨h1, h2, h3⟩
      · exact ⟨by omega, by omega, h2, h3⟩
      · exact ⟨by omega, h3⟩
    rw [elementsFrom]
    split
    · next hend =>
      simp only [List.mem_cons, exists_eq_or_imp, ih (i + 1) (i + 1) le_rfl, hstep]
      have hi : b = i → (isEnd b = true ∨ b + 1 = i + (rest + 1)) := by
        rintro rfl
        simp only [Bool.or_eq_true, beq_iff_eq] at hend
        rcases hend with h | h
        · exact .inl h
        · exact .inr (by omega)
      constructor
      · rintro (h | ⟨_, h⟩)
        · have hb : b = i := by omega
          exact ⟨by omega, by omega, hi hb⟩
        · exact h
      · intro h
        by_cases hb : b = i
        · exact .inl (by omega)
        · exact .inr ⟨hb, h⟩
    · next hend =>
      rw [ih (i + 1) lo (by omega), hstep]
      simp only [Bool.or_eq_true, beq_iff_eq, not_or] at hend
      obtain ⟨hend, hrest⟩ := hend
      constructor
      · exact fun h => h.2
      · rintro ⟨h1, h2, h3⟩
        refine ⟨?_, h1, h2, h3⟩
        rintro rfl
        rcases h3 with h3 | h3
        · exact hend h3
        · omega

/-- Where the elements of a long word end: where `isEnd` says so, and at bit 63 (D24). -/
theorem elements_end_iff (isEnd : Nat → Bool) {b : Nat} (hb : b < 64) :
    (∃ e ∈ elements isEnd, e.1 + e.2 = b + 1) ↔ isEnd b = true ∨ b = 63 := by
  unfold elements
  rw [elementsFrom_end_iff isEnd 64 0 0 le_rfl]
  constructor
  · rintro ⟨_, _, h | h⟩
    · exact .inl h
    · exact .inr (by omega)
  · rintro (h | h)
    · exact ⟨by omega, by omega, .inl h⟩
    · exact ⟨by omega, by omega, .inr (by omega)⟩

theorem splitF_tiles (f : Long) : Tiles (splitF f) 0 64 := elements_tiles _

/-- Two tiles with a bit in common are the same. -/
theorem Tiles.eq_of_common {es : List (Nat × Nat)} {lo hi b : Nat} (h : Tiles es lo hi) {d e : Nat × Nat}
    (hd : d ∈ es) (he : e ∈ es) (hbd : d.1 ≤ b ∧ b < d.1 + d.2) (hbe : e.1 ≤ b ∧ b < e.1 + e.2) : d = e := by
  by_contra hne
  have : Std.Symm fun d e : Nat × Nat => d.1 + d.2 ≤ e.1 ∨ e.1 + e.2 ≤ d.1 := ⟨fun _ _ => Or.symm⟩
  have hall : es.Pairwise fun d e => d.1 + d.2 ≤ e.1 ∨ e.1 + e.2 ≤ d.1 := h.ordered.imp Or.inl
  have hapart := hall.forall hd he hne
  omega

/-- Settles O43: each split is into tiles of the word, with the ends its rule gives. -/
theorem splitElements : Obligations.SplitElements := by
  intro f nb sb
  refine ⟨fun i hi => ?_, fun i hi => ?_, fun i hi => ?_, fun es hes => ?_⟩
  · rw [splitF, elements_end_iff _ hi]; simp
  · exact elements_end_iff _ hi
  · rw [splitSB, elements_end_iff _ hi]
    have hsb : ((i + 1) % 2 == 0 && sb.getLsbD ((i + 1) / 2)) = true ↔ ∃ j, i + 1 = 2 * j ∧ sb.getLsbD j = true := by
      simp only [Bool.and_eq_true, beq_iff_eq]
      constructor
      · rintro ⟨h2, hj⟩; exact ⟨(i + 1) / 2, by omega, hj⟩
      · rintro ⟨j, hj, hs⟩
        have : (i + 1) / 2 = j := by omega
        exact ⟨by omega, by rwa [this]⟩
    rw [hsb]
  · have ht : Tiles es 0 64 := by
      simp only [List.mem_cons, List.not_mem_nil, or_false] at hes
      rcases hes with rfl | rfl | rfl <;> exact elements_tiles _
    refine ⟨fun b hb => ?_, ht.ordered, fun e he => (ht.within e he).2⟩
    obtain ⟨e, he, hbe⟩ := ht.covers b (by omega) hb
    exact ⟨e, ⟨he, hbe⟩, fun d ⟨hd, hbd⟩ => ht.eq_of_common hd he hbd hbe⟩

/-! ### Words packed from elements (R703) -/

/-- What the elements `es` add up to, each with the value `f` gives it. -/
def packSum (es : List (Nat × Nat)) (f : Nat × Nat → Nat) : Nat := (es.map fun e => f e % 2 ^ e.2 * 2 ^ e.1).sum

/-- Elements from bit `m` on add up to a multiple of `2 ^ m`. -/
theorem two_pow_dvd_packSum {es : List (Nat × Nat)} {m : Nat} (f : Nat × Nat → Nat) (h : ∀ e ∈ es, m ≤ e.1) :
    2 ^ m ∣ packSum es f := by
  refine List.dvd_sum fun x hx => ?_
  obtain ⟨e, he, rfl⟩ := List.mem_map.mp hx
  exact Dvd.dvd.mul_left (pow_dvd_pow 2 (h e he)) _

/-- An element's bits of the sum are its value: those below are less than its unit, those above multiples of its
range. -/
theorem packSum_element {es : List (Nat × Nat)} (f : Nat × Nat → Nat)
    (h : es.Pairwise fun d e => d.1 + d.2 ≤ e.1) {e : Nat × Nat} (he : e ∈ es) :
    packSum es f / 2 ^ e.1 % 2 ^ e.2 = f e % 2 ^ e.2 := by
  induction es with
  | nil => cases he
  | cons d t ih =>
    rw [List.pairwise_cons] at h
    obtain ⟨hd, ht⟩ := h
    obtain ⟨q, hq⟩ := two_pow_dvd_packSum f hd
    have hsum : packSum (d :: t) f = f d % 2 ^ d.2 * 2 ^ d.1 + packSum t f := rfl
    rcases List.mem_cons.mp he with rfl | he
    · calc packSum (e :: t) f / 2 ^ e.1 % 2 ^ e.2
          = 2 ^ e.1 * (f e % 2 ^ e.2 + 2 ^ e.2 * q) / 2 ^ e.1 % 2 ^ e.2 := by rw [hsum, hq, pow_add]; ring_nf
        _ = (f e % 2 ^ e.2 + 2 ^ e.2 * q) % 2 ^ e.2 := by rw [Nat.mul_div_cancel_left _ (by positivity)]
        _ = f e % 2 ^ e.2 := by rw [Nat.add_mul_mod_self_left, Nat.mod_mod]
    · have hlt : f d % 2 ^ d.2 * 2 ^ d.1 < 2 ^ (d.1 + d.2) := by
        rw [pow_add, Nat.mul_comm]
        exact Nat.mul_lt_mul_of_pos_left (Nat.mod_lt _ (by positivity)) (by positivity)
      have hunit : 2 ^ e.1 = 2 ^ (d.1 + d.2) * 2 ^ (e.1 - (d.1 + d.2)) := by
        rw [← pow_add]; congr 1; have := hd e he; omega
      have hdrop : packSum (d :: t) f / 2 ^ e.1 = packSum t f / 2 ^ e.1 := by
        rw [hsum, hq, hunit, ← Nat.div_div_eq_div_mul, ← Nat.div_div_eq_div_mul, Nat.add_mul_div_left _ _ (by positivity),
          Nat.div_eq_of_lt hlt, Nat.zero_add, Nat.mul_div_cancel_left _ (by positivity)]
      rw [hdrop, ih ht he]

/-- Bits of a long word are those of the number it was made of. -/
theorem field_ofNat (n : Nat) {e : Nat × Nat} (h : e.1 + e.2 ≤ 64) :
    field (BitVec.ofNat 64 n) e = n / 2 ^ e.1 % 2 ^ e.2 := by
  apply Nat.eq_of_testBit_eq
  intro i
  rw [field, BitVec.toNat_ofNat]
  simp only [Nat.testBit_mod_two_pow, Nat.testBit_div_two_pow]
  by_cases hi : i < e.2
  · simp [hi, show i + e.1 < 64 by omega]
  · simp [hi]

/-- A packed word holds in each of its tiles what was packed there. -/
theorem field_packElements {es : List (Nat × Nat)} (h : Tiles es 0 64) (f : Nat × Nat → Nat) {e : Nat × Nat}
    (he : e ∈ es) : field (packElements es f) e = f e % 2 ^ e.2 := by
  rw [packElements, field_ofNat _ (h.within e he).2.2]
  exact packSum_element f h.ordered he

/-! ### Activation (R129, R130) -/

theorem field_lt (v : Long) (e : Nat × Nat) : field v e < 2 ^ e.2 := Nat.mod_lt _ (by positivity)

/-- An element is negative when its highest bit is 1. -/
theorem signedField_neg_iff (v : Long) (e : Nat × Nat) : signedField v e < 0 ↔ ¬ field v e < 2 ^ (e.2 - 1) := by
  have hlt : (field v e : Int) < 2 ^ e.2 := by exact_mod_cast field_lt v e
  unfold signedField
  split <;> omega

/-- There are at most as many ones as bits. -/
theorem onesIn_le (f : Long) (lo n : Nat) : onesIn f lo n ≤ n := by
  induction n with
  | zero => exact le_rfl
  | succ n ih =>
    have : (f.getLsbD (lo + n)).toNat ≤ 1 := by cases f.getLsbD (lo + n) <;> simp
    simp only [onesIn]; omega

/-- The signed value of `d` in an element of `n` bits. -/
def signedOf (d n : Nat) : Int := if d < 2 ^ (n - 1) then d else (d : Int) - 2 ^ n

theorem signedField_eq (v : Long) (e : Nat × Nat) : signedField v e = signedOf (field v e) e.2 := rfl

/-- `Sat` by its bounds: a value whose `k + 1` highest bits agree stays, another becomes the nearest one whose do
(R129). -/
theorem sat_eq {d n k : Nat} (h : d < 2 ^ n) (hk : k ≤ n) :
    sat d n k = if d < 2 ^ (n - k) ∨ 2 ^ n - 2 ^ (n - k) ≤ d then d
      else if d < 2 ^ (n - 1) then 2 ^ (n - k) - 1 else 2 ^ n - 2 ^ (n - k) := by
  have hpos : 0 < 2 ^ (n - k) := by positivity
  have hn : 2 ^ n = 2 ^ k * 2 ^ (n - k) := by rw [← pow_add]; congr 1; omega
  have hmul : (2 ^ k - 1) * 2 ^ (n - k) = 2 ^ n - 2 ^ (n - k) := by rw [hn, Nat.sub_mul, Nat.one_mul]
  have hzero : d / 2 ^ (n - k) = 0 ↔ d < 2 ^ (n - k) := Nat.div_eq_zero_iff_lt hpos
  have hlt : d / 2 ^ (n - k) < 2 ^ k := by rwa [Nat.div_lt_iff_lt_mul hpos, ← hn]
  have hones : d / 2 ^ (n - k) = 2 ^ k - 1 ↔ 2 ^ n - 2 ^ (n - k) ≤ d := by
    rw [← hmul, ← Nat.le_div_iff_mul_le hpos]; omega
  simp only [sat, hzero, hones, hmul]

/-- Without ones `Sat` does nothing (D31). -/
theorem sat_zero {d n : Nat} (h : d < 2 ^ n) : sat d n 0 = d := by
  simp [sat, Nat.div_eq_of_lt h]

/-- `Sat` stays in the element. -/
theorem sat_lt {d n k : Nat} (h : d < 2 ^ n) (hk : k ≤ n) : sat d n k < 2 ^ n := by
  have hpos : 0 < 2 ^ (n - k) := by positivity
  have hle : 2 ^ (n - k) ≤ 2 ^ n := Nat.pow_le_pow_right (by omega) (by omega)
  rw [sat_eq h hk]
  split
  · exact h
  · split <;> omega

/-- With `k` ones `Sat` clamps the signed value to `n - k` bits and a sign (R129). -/
theorem signedOf_sat {d n k : Nat} (h : d < 2 ^ n) (hk : k ≤ n) (hk0 : 0 < k) :
    signedOf (sat d n k) n = max (-2 ^ (n - k)) (min (2 ^ (n - k) - 1) (signedOf d n)) := by
  have hpos : 0 < 2 ^ (n - k) := by positivity
  have hn : 2 ^ n = 2 * 2 ^ (n - 1) := by rw [← pow_succ']; congr 1; omega
  have hhalf : 2 ^ (n - k) ≤ 2 ^ (n - 1) := Nat.pow_le_pow_right (by omega) (by omega)
  have hm : (2 : Int) ^ (n - k) = ((2 ^ (n - k) : Nat) : Int) := by push_cast; rfl
  have hN : (2 : Int) ^ n = ((2 ^ n : Nat) : Int) := by push_cast; rfl
  rw [sat_eq h hk]
  unfold signedOf
  rw [hm, hN]
  generalize 2 ^ (n - k) = m at *
  generalize 2 ^ (n - 1) = half at *
  generalize 2 ^ n = range at *
  by_cases hstay : d < m ∨ range - m ≤ d
  · rw [if_pos hstay]; split <;> omega
  · rw [if_neg hstay]
    by_cases hneg : d < half
    · rw [if_pos hneg, if_pos (by omega)]; omega
    · rw [if_neg hneg, if_neg (by omega)]; omega

/-- All ones is -1, none is 0. -/
theorem signedOf_bounds {n : Nat} (h : 0 < n) : signedOf 0 n = 0 ∧ signedOf (2 ^ n - 1) n = -1 := by
  have hpos : 0 < 2 ^ (n - 1) := by positivity
  have hn : 2 ^ n = 2 * 2 ^ (n - 1) := by rw [← pow_succ']; congr 1; omega
  have hN : (2 : Int) ^ n = ((2 ^ n : Nat) : Int) := by push_cast; rfl
  unfold signedOf
  rw [hN, if_pos hpos, if_neg (by omega)]
  omega

/-- What `Threshold` leaves in an element (R130). -/
theorem field_threshold {f v : Long} {e : Nat × Nat} (he : e ∈ splitF f) :
    field (threshold f v) e = if field v e < 2 ^ (e.2 - 1) then 0 else 2 ^ e.2 - 1 := by
  have hpos : 0 < 2 ^ e.2 := by positivity
  rw [threshold, field_packElements (splitF_tiles f) _ he]
  refine Nat.mod_eq_of_lt ?_
  split <;> omega

/-- What `Saturate` leaves in an element (R129). -/
theorem field_saturate {f v : Long} {e : Nat × Nat} (he : e ∈ splitF f) :
    field (saturate f v) e = sat (field v e) e.2 (onesIn f e.1 e.2) := by
  rw [saturate, field_packElements (splitF_tiles f) _ he]
  exact Nat.mod_eq_of_lt (sat_lt (field_lt v e) (onesIn_le f e.1 e.2))

/-- Settles O45, by the values the two functions leave in an element. -/
theorem activationElements : Obligations.ActivationElements := by
  intro f v e he
  have hlt := field_lt v e
  constructor
  · have hwidth : 0 < e.2 := ((splitF_tiles f).within e he).2.1
    obtain ⟨hzero, hones⟩ := signedOf_bounds hwidth
    simp only [signedField_neg_iff]
    rw [signedField_eq, field_threshold he]
    by_cases hneg : field v e < 2 ^ (e.2 - 1)
    · rw [if_pos hneg, if_neg (not_not.mpr hneg), hzero]
    · rw [if_neg hneg, if_pos hneg, hones]
  · rw [signedField_eq, signedField_eq, field_saturate he]
    split
    · next h0 => rw [h0, sat_zero hlt]
    · next h0 => exact signedOf_sat hlt (onesIn_le f e.1 e.2) (Nat.pos_of_ne_zero h0)

end Sys2Proof.Machine
end

section
/-! PROOFS. Memory: the access primitives, the vector memory modes as repeated scalar modes, and the step that runs
the instruction at ipc. -/

namespace Sys2Proof.Machine

open Sys2Proof

/-! ### Reading after writing (R205, R230) -/

/-- A read of one word, when the word at the address and the free value are known. -/
theorem State.read32_congr {s t : State} (k : Nat) {b : Word} (hp : t.params = s.params) (hf : t.freeCtr = s.freeCtr)
    (hw : Memory.word t.mem b = Memory.word s.mem b) : t.read32 k b = s.read32 k b := by
  have hb : t.backed b = s.backed b := by rw [State.backed, hp, State.backed]
  rw [State.read32, State.read32, hb, hf, hw]

/-- A read inside MemMap is the word of memory (R205). -/
theorem State.read32_of_backed {s : State} (k : Nat) {a : Word} (h : s.backed a = true) :
    s.read32 k a = Memory.word s.mem a := if_pos h

theorem State.backed_write64 (s : State) (a b : Word) (v : Long) : (s.write64 a v).backed b = s.backed b := by
  unfold State.write64
  rw [State.backed_write32, State.backed_write32]

/-- A read inside MemMap of a word just written. -/
theorem State.read32_write32_self {s : State} (k : Nat) {a : Word} (v : Word) (h : s.backed a = true) :
    (s.write32 a v).read32 k a = v := by
  rw [State.read32_of_backed k (by rw [State.backed_write32, h]), State.word_write32, if_pos ⟨rfl, h⟩]

theorem State.read32_write32_of_ne (s : State) (k : Nat) {a b : Word} (v : Word) (h : b ≠ a) :
    (s.write32 a v).read32 k b = s.read32 k b :=
  State.read32_congr k (by simp) (by simp) (by rw [State.word_write32, if_neg fun hb => h hb.1])

theorem State.read32_write64_lo {s : State} (k : Nat) {a : Word} (v : Long) (h : s.backed a = true) :
    (s.write64 a v).read32 k a = v.lo := by
  rw [State.read32_of_backed k (by rw [State.backed_write64, h]), State.word_write64_lo s a v h]

theorem State.read32_write64_hi {s : State} (k : Nat) {a : Word} (v : Long) (h : s.backed (a + 1) = true) :
    (s.write64 a v).read32 k (a + 1) = v.hi := by
  rw [State.read32_of_backed k (by rw [State.backed_write64, h]), State.word_write64_hi s a v h]

/-- A long word is its two halves (R13). -/
theorem Long.ofHalves_hi_lo (v : Long) : Long.ofHalves v.hi v.lo = v := by
  apply BitVec.eq_of_getLsbD_eq
  intro i hi
  simp only [BitVec.getLsbD_append, BitVec.getLsbD_extractLsb']
  by_cases h : i < 32
  · simp [h]
  · simp [h, show i - 32 < 32 by omega, show 32 + (i - 32) = i by omega]

/-- Settles O16: inside MemMap a read returns what was written there last, outside nothing is written. -/
theorem memReadWrite : Obligations.MemReadWrite := by
  intro s a b v w k
  refine ⟨State.read32_write32_self k v, State.read32_write32_of_ne s k v, fun hlo hhi => ?_, fun h => ?_⟩
  · have lo := State.read32_write64_lo k w hlo
    have hi := State.read32_write64_hi k w hhi
    refine ⟨?_, lo, hi⟩
    rw [State.read64, lo, hi, Long.ofHalves_hi_lo]
  · exact if_neg (by simp [h])

/-! ### Vector memory modes (R211) -/

/-- The last of two writes to an address register stays. -/
theorem State.setAr_setAr (s : State) (i : Ix) (v w : Word) : (s.setAr i v).setAr i w = s.setAr i w := by
  simp [State.setAr]

/-- An address and `k` steps of 2, and one more. -/
theorem Word.add_steps_succ (a : Word) (k : Nat) :
    a + BitVec.ofNat 32 (2 * k) + 2 = a + BitVec.ofNat 32 (2 * (k + 1)) := by
  bv_omega

theorem Word.sub_steps_succ (a : Word) (k : Nat) :
    a - BitVec.ofNat 32 (2 * k) - 2 = a - BitVec.ofNat 32 (2 * (k + 1)) := by
  bv_omega

theorem Word.add_mul_succ (a g : Word) (k : Nat) :
    a + BitVec.ofNat 32 k * g + g = a + BitVec.ofNat 32 (k + 1) * g := by
  rw [BitVec.ofNat_add, BitVec.add_mul, BitVec.one_mul, BitVec.add_assoc]

/-- After `k` uses made at once, the scalar mode's address is that of use `k`. -/
theorem VMode.ea_eq (m : VMode) (k : Nat) (s : State) :
    m.ea k s = (vmodeScalar m).ea 0 2 (s.applyUpd (m.upd k s)) := by
  cases m with
  | ar n => rfl
  | gr n => rfl
  | arSetGr n => rfl
  | arInc n => exact (State.ar_setAr_self ..).symm
  | decAr n => simp only [VMode.ea, ← Word.sub_steps_succ]; exact congrArg (· - 2) (State.ar_setAr_self ..).symm
  | arIncGr n => exact (State.ar_setAr_self ..).symm
  | arAddGr n =>
    simp only [VMode.ea, ← Word.add_mul_succ]
    exact congrArg (· + s.gr n) (State.ar_setAr_self ..).symm

/-- After `k` uses made at once, the scalar mode's update is that of `k + 1` uses. -/
theorem VMode.upd_succ (m : VMode) (k : Nat) (s : State) :
    (vmodeScalar m).upd 0 2 (s.applyUpd (m.upd k s)) = m.upd (k + 1) s := by
  cases m with
  | ar n => rfl
  | gr n => rfl
  | arSetGr n => rfl
  | arInc n => simp only [vmodeScalar, Mode.upd, VMode.upd, State.applyUpd, State.ar_setAr_self, Word.add_steps_succ]
  | decAr n => simp only [vmodeScalar, Mode.upd, VMode.upd, State.applyUpd, State.ar_setAr_self, Word.sub_steps_succ]
  | arIncGr n =>
    simp only [vmodeScalar, Mode.upd, VMode.upd, State.applyUpd, State.ar_setAr_self, State.gr_setAr, Word.add_mul_succ]
  | arAddGr n =>
    simp only [vmodeScalar, Mode.upd, VMode.upd, State.applyUpd, State.ar_setAr_self, State.gr_setAr, Word.add_mul_succ]

/-- Every use of a mode updates the same register, if any. -/
theorem VMode.applyUpd_upd (m : VMode) (j k : Nat) (s t : State) :
    (s.applyUpd (m.upd j t)).applyUpd (m.upd k t) = s.applyUpd (m.upd k t) := by
  cases m with
  | ar n => rfl
  | gr n => rfl
  | _ => exact State.setAr_setAr ..

/-- `k + 1` uses one after another are `k + 1` uses made at once. -/
theorem afterUses_succ (m : VMode) (k : Nat) (s : State) :
    afterUses m (k + 1) s = s.applyUpd (m.upd (k + 1) s) := by
  induction k with
  | zero => cases m <;> simp [afterUses, vmodeScalar, Mode.upd, VMode.upd]
  | succ k ih => rw [afterUses, ih, VMode.upd_succ, VMode.applyUpd_upd]

/-- Settles O47: the uses so far, made at once, leave the scalar mode the address and the update of the next. -/
theorem vModeSteps : Obligations.VModeSteps := by
  intro m s k
  constructor
  · cases k with
    | zero => cases m <;> simp [afterUses, vmodeScalar, Mode.ea, VMode.ea]
    | succ k => rw [afterUses_succ, VMode.ea_eq]
  · intro j
    rw [afterUses_succ, State.ar_applyUpd]
    rfl

/-! ### The step that runs an instruction (R221, R830) -/

/-- No interrupt is taken while a delayed transfer is pending or every request is masked (R830, R477). -/
theorem State.interruptNow_none {s : State}
    (h : s.pending.isSome = true ∨ ∀ k : Fin 9, s.ireq.getLsbD k = true → s.psw (k + 5) = true) :
    s.interruptNow = none := by
  unfold State.interruptNow
  by_cases hp : s.pending.isSome = true
  · exact if_pos hp
  · have hmask := h.resolve_left hp
    rw [if_neg hp, State.nextReq, List.find?_eq_none]
    intro k _
    simpa [State.enabledReq] using hmask k

/-- A step of the processor that takes no interrupt runs the instruction fetched. -/
theorem coreStep_eq_exec {s : State} {i : Instr} (hs : s.stuck = false) (hi : s.interruptNow = none)
    (hf : s.fetch = .ok i) : coreStep s = exec i s := by
  simp only [coreStep, hs, hi, hf, Bool.false_eq_true, if_false]

/-- Settles O5: with the schedule out of the way, nothing comes before the fetch. -/
theorem stepRunsDecoded : Obligations.StepRunsDecoded := by
  intro s i hs hmask hdecode
  constructor
  · intro hin
    have hstep : step s = coreStep s := by rw [step, hin]
    exact hstep.trans (coreStep_eq_exec hs (State.interruptNow_none hmask) hdecode)
  · intro rest
    exact coreStep_eq_exec (s := { s with inputs := rest }) hs (State.interruptNow_none hmask) hdecode

end Sys2Proof.Machine
end

section
/-! PROOFS. Delayed instructions: nothing but a control transfer looks at the record of a pending transfer, so an
instruction in the window does what it does without one; then its end performs the transfer (R475). -/

namespace Sys2Proof.Machine

open Sys2Proof

/-- The state with another record of a delayed transfer. -/
def State.withPending (s : State) (q : Option Pending) : State := { s with pending := q }

/-! ### What the operations do is the same beside any record -/

theorem State.withPending_self (s : State) : s.withPending s.pending = s := rfl

theorem State.requestSpr_withPending (s : State) (q : Option Pending) (fn : AluFn) (f : BitVec 4) :
    (s.withPending q).requestSpr fn f = (s.requestSpr fn f).withPending q := by
  unfold State.requestSpr
  split <;> rfl

theorem State.aluWrite_withPending (s : State) (q : Option Pending) (f : AluForm) (o : AluOut) (fn : AluFn) :
    (s.withPending q).aluWrite f o fn = (s.aluWrite f o fn).withPending q := by
  cases f with
  | std d => exact State.requestSpr_withPending ((s.setGr d o.r).setFlags o.flags) ..
  | flagsOnly => exact State.requestSpr_withPending (s.setFlags o.flags) ..
  | noflags d => rfl

theorem State.mulWrite_withPending (s : State) (q : Option Pending) (first nf : Bool) (d a : Ix) :
    (s.withPending q).mulWrite first nf d a = (s.mulWrite first nf d a).withPending q := by
  have hregs : (s.withPending q).mulRegs first d a = (s.mulRegs first d a).withPending q := by
    unfold State.mulRegs
    split <;> rfl
  unfold State.mulWrite
  rw [hregs]
  split <;> rfl

theorem State.rightPart_withPending (s : State) (q : Option Pending) (r : SRight) :
    (s.withPending q).rightPart r = (s.rightPart r).withPending q := by
  cases r with
  | nul => rfl
  | shift k d a n =>
    simp only [State.rightPart]
    split <;> rfl
  | alu f fn a b =>
    cases fn
    case mulFirst | mulNext =>
      cases f with
      | std d => exact State.mulWrite_withPending ..
      | flagsOnly => rfl
      | noflags d => exact State.mulWrite_withPending ..
    all_goals exact State.aluWrite_withPending ..

theorem State.applyUpd_withPending (s : State) (q : Option Pending) (u : Option (Ix × Word)) :
    (s.withPending q).applyUpd u = (s.applyUpd u).withPending q := by
  cases u <;> rfl

theorem State.writeReg_withPending (s : State) (q : Option Pending) (d : Reg) (v : Long) :
    (s.withPending q).writeReg d v = (s.writeReg d v).withPending q := by
  have hspec : ∀ (s : State) (r : SpecReg) (v : Word),
      (s.withPending q).writeSpec r v = (s.writeSpec r v).withPending q := by
    intro s r v
    cases r <;> rfl
  cases d with
  | ar n => rfl
  | gr n => rfl
  | pair n => rfl
  | special x =>
    cases x with
    | one r => exact hspec ..
    | two p => simp only [State.writeReg, hspec]
  | vctl c => rcases c with c | c <;> cases c <;> rfl

theorem State.write32_withPending (s : State) (q : Option Pending) (a v : Word) :
    (s.withPending q).write32 a v = (s.write32 a v).withPending q := by
  have hb : (s.withPending q).backed a = s.backed a := rfl
  unfold State.write32
  rw [hb]
  split <;> rfl

theorem State.write64_withPending (s : State) (q : Option Pending) (a : Word) (v : Long) :
    (s.withPending q).write64 a v = (s.write64 a v).withPending q := by
  simp only [State.write64, State.write32_withPending]

theorem State.doLoad_withPending {s t u : State} (q : Option Pending) {d : Reg} {m : Mode} {k : Word}
    (h : s.doLoad t d m k = .ok u) : (s.withPending q).doLoad (t.withPending q) d m k = .ok (u.withPending q) := by
  obtain ⟨v, hv, rfl⟩ := State.doLoad_ok h
  have hv' : (s.withPending q).load d.wide (m.ea k d.step (s.withPending q)) = .ok v := hv
  have hm : m.upd k d.step (s.withPending q) = m.upd k d.step s := rfl
  simp only [State.doLoad, hv', hm, State.applyUpd_withPending, State.writeReg_withPending]

theorem State.doStore_withPending {s t u : State} (q : Option Pending) {d : Reg} {m : Mode} {k : Word}
    (h : s.doStore t m d k = .ok u) : (s.withPending q).doStore (t.withPending q) m d k = .ok (u.withPending q) := by
  obtain ⟨v, hv, rfl⟩ := State.doStore_ok h
  have hm : m.upd k d.step (s.withPending q) = m.upd k d.step s := rfl
  have hr : (s.withPending q).readReg d = s.readReg d := rfl
  have he : m.ea k d.step (s.withPending q) = m.ea k d.step s := rfl
  have hv' : (t.withPending q).store d.wide (m.ea k d.step s) (s.readReg d) = .ok (v.withPending q) := by
    unfold State.store
    rcases State.store_ok hv with ⟨hw, ho, rfl⟩ | ⟨hw, rfl⟩
    · simp only [hw, ho, State.write64_withPending]; rfl
    · simp only [hw, State.write32_withPending]; rfl
  simp only [State.doStore, hr, he, hv', hm, State.applyUpd_withPending]

/-- A left part that transfers no control does the same beside any record (R475). -/
theorem State.leftPart_withPending {s t u : State} (q : Option Pending) {l : SLeft} {k : Word} {n m : Nat}
    (hx : ∀ c d x, l ≠ .xfer c d x) (h : s.leftPart t l k n = .ok u) :
    (s.withPending q).leftPart (t.withPending q) l k m = .ok (u.withPending q) := by
  cases l with
  | load d m => exact State.doLoad_withPending q h
  | pop d => exact State.doLoad_withPending q h
  | store m d => exact State.doStore_withPending q h
  | push d => exact State.doStore_withPending q h
  | copy d r => injection h with h; subst h; exact congrArg _ (State.writeReg_withPending ..)
  | setConst d => injection h with h; subst h; exact congrArg _ (State.writeReg_withPending ..)
  | xfer c d x => exact absurd rfl (hx c d x)
  | nul => injection h with h; subst h; rfl
  | nulC => injection h with h; subst h; rfl
  | popDrop => injection h with h; subst h; rfl
  | arMod o => injection h with h; subst h; rfl
  | pswrSet => injection h with h; subst h; rfl
  | pswrClear => injection h with h; subst h; rfl

theorem State.vectorStore_withPending (s : State) (q : Option Pending) (m : VMem) (count : Nat) :
    (s.withPending q).vectorStore m count = (s.vectorStore m count).withPending q := by
  have hwrite : ∀ (v : VMode) (ws : List Long) (k : Nat) (t : State),
      (s.withPending q).vectorWrite v k ws (t.withPending q) = (s.vectorWrite v k ws t).withPending q := by
    intro v ws
    induction ws with
    | nil => exact fun _ _ => rfl
    | cons w ws ih =>
      intro k t
      simp only [State.vectorWrite, State.write64_withPending, ih]
      rfl
  cases m with
  | none => rfl
  | load b v => exact State.applyUpd_withPending ..
  | store v b =>
    refine Eq.trans ?_ (State.applyUpd_withPending ..)
    exact congrArg (fun t : State => t.applyUpd (v.upd count s)) (hwrite v s.afifo 0 s)

theorem State.vectorEffect_withPending (s : State) (q : Option Pending) (count : Nat) (l : VLeft) (r : VRight) :
    (s.withPending q).vectorEffect count l r = (s.vectorEffect count l r).withPending q := by
  unfold State.vectorEffect State.doWeights
  rw [State.vectorStore_withPending]
  cases l.ftw <;> cases l.wtw <;> rfl

/-! ### Instructions in the window (R475) -/

/-- A scalar instruction that transfers no control, beside any record. -/
theorem runScalar_withPending {p : Bool} {l : SLeft} {k : Word} {r : SRight} {s u : State} (q : Option Pending)
    (hs : s.pending = none) (hx : ∀ c d x, l ≠ .xfer c d x) (h : runScalar p l k r s = .next u) :
    ∃ v : State, v.pending = none ∧ v.finish none = .next u ∧
      runScalar p l k r (s.withPending q) = (v.withPending q).finish q := by
  obtain ⟨hd, ho, v, hv, hf⟩ := runScalar_next h
  have hpending : v.pending = none := by
    rw [State.leftPart_pending hv fun c x => hx c true x, State.advance_pending, State.rightPart_pending, hs]
  have hleft := State.leftPart_withPending q (m := (s.withPending q).slots ⟨.scalar p l r, k⟩) hx hv
  refine ⟨v, hpending, hs ▸ hf, runScalar_of_left (s := s.withPending q) hd ho ?_⟩
  rw [State.rightPart_withPending]
  exact hleft

/-- A vector instruction that fails a check of R715 requests VPR and ends. -/
theorem runVector_of_error {p : Bool} {n : Rep} {l : VLeft} {r : VRight} {s : State} (hd : vectorDefect n l r = none)
    (hw : s.wfifoBlocks (l.mem.wfifoLoad (n.val + 1)) l.ftw = false) (he : s.vectorError (n.val + 1) l.mem r = true) :
    runVector p n l r s = ((s.raise 6).advance 1).finish s.pending := by
  simp only [runVector, hd, hw, he, Bool.false_eq_true, if_false, if_true]

/-- A vector instruction that passes its checks does its steps 4 to 8 and ends. -/
theorem runVector_of_ready {p : Bool} {n : Rep} {l : VLeft} {r : VRight} {s : State} (h : vectorReady n l r s) :
    runVector p n l r s = ((s.vectorEffect (n.val + 1) l r).advance 1).finish s.pending := by
  obtain ⟨hd, hw, he, ho, hr⟩ := h
  simp only [runVector, hd, hw, he, ho, hr, Bool.not_true, Bool.false_eq_true, if_false]

/-- A vector instruction that does not block, beside any record. -/
theorem runVector_withPending {p : Bool} {n : Rep} {l : VLeft} {r : VRight} {s u : State} (q : Option Pending)
    (hs : s.pending = none) (hu : u.stuck = false) (h : runVector p n l r s = .next u) :
    ∃ v : State, v.pending = none ∧ v.finish none = .next u ∧
      runVector p n l r (s.withPending q) = (v.withPending q).finish q := by
  obtain ⟨hd, ⟨_, rfl⟩ | ⟨hw, ⟨he, hf⟩ | ⟨he, ho, hr, hf⟩⟩⟩ := runVector_next h
  · cases hu
  · exact ⟨(s.raise 6).advance 1, hs, hs ▸ hf, runVector_of_error (s := s.withPending q) hd hw he⟩
  · have hpending : (s.vectorEffect (n.val + 1) l r).pending = none := by
      obtain ⟨_, _, _, _, _, e⟩ := State.vectorEffect_eq s (n.val + 1) l r
      rw [e]
      exact hs
    refine ⟨(s.vectorEffect (n.val + 1) l r).advance 1, hpending, hs ▸ hf,
      (runVector_of_ready (s := s.withPending q) ⟨hd, hw, he, ho, hr⟩).trans ?_⟩
    rw [State.vectorEffect_withPending]
    rfl

/-- Whether a vector instruction without a count blocks: `ftw` without words enough (R636). -/
def State.bareBlocks (s : State) : VBare → Bool
  | .vnul | .wtw => false
  | .ftw | .ftwWtw => s.wfifoBlocks 0 true

/-- What a vector instruction without a count does before its end (R680, R685, R687, R690). -/
def State.bareEffect (s : State) : VBare → State
  | .vnul => s
  | .wtw => s.doWtw
  | .ftw => s.doFtw
  | .ftwWtw => s.doFtw.doWtw

theorem runBare_eq (p : Bool) (b : VBare) (s : State) : runBare p b s =
    if s.bareBlocks b then .next s.block else ((s.bareEffect b).advance 1).finish s.pending := by
  cases b <;> rfl

/-- A vector instruction without a count that does not block, beside any record. -/
theorem runBare_withPending {p : Bool} {b : VBare} {s u : State} (q : Option Pending)
    (hs : s.pending = none) (hu : u.stuck = false) (h : runBare p b s = .next u) :
    ∃ v : State, v.pending = none ∧ v.finish none = .next u ∧
      runBare p b (s.withPending q) = (v.withPending q).finish q := by
  rw [runBare_eq] at h
  split at h
  · injection h with h
    simp [← h] at hu
  · next hb =>
    have hb' : ¬ (s.withPending q).bareBlocks b = true := by cases b <;> exact hb
    have hpending : (s.bareEffect b).pending = none := by cases b <;> exact hs
    have heffect : (s.withPending q).bareEffect b = (s.bareEffect b).withPending q := by cases b <;> rfl
    refine ⟨(s.bareEffect b).advance 1, hpending, hs ▸ h, ?_⟩
    rw [runBare_eq, if_neg hb', heffect]
    rfl

/-- An instruction that transfers no control and does not block: before its end it does the same beside any record
`q`, and its clear bits (step 9 of R631) come before the record is looked at. `w` is the state it leaves, but for the
count of the free values. -/
theorem exec_withPending {i : Instr} {s u : State} (q : Option Pending) (hs : s.pending = none)
    (hx : ∀ p c d x r k, i.code ≠ ⟨.scalar p (.xfer c d x) r, k⟩) (hu : u.stuck = false) (h : exec i s = .next u) :
    ∃ w : State, w.pending = none ∧ w.clearFifos = w ∧ u = w.tickFree ∧
      exec i (s.withPending q) = (w.withPending q).finish q := by
  have hrun : ∃ v : State, v.pending = none ∧ v.finish none = .next u ∧
      exec i (s.withPending q) = (v.withPending q).finish q := by
    rw [exec_eq_run] at h ⊢
    rcases hc : i.code with ⟨low, k⟩
    rw [hc] at h
    cases low with
    | scalar p l r =>
      exact runScalar_withPending q hs (by rintro c d x rfl; exact hx p c d x r k hc) h
    | vector p n l r => exact runVector_withPending (p := p) q hs hu h
    | bare p b => exact runBare_withPending (p := p) q hs hu h
  obtain ⟨v, hv, hf, he⟩ := hrun
  rw [State.finish_none] at hf
  injection hf with hf
  refine ⟨v.clearFifos, hv, v.clearFifos_clearFifos, hf.symm, he.trans ?_⟩
  have hclear : (v.clearFifos.withPending q).clearFifos = (v.withPending q).clearFifos :=
    congrArg (·.withPending q) v.clearFifos_clearFifos
  rw [State.finish, State.finish, hclear]

/-! ### The end of an instruction in the window (R475)

`w` is what the instruction leaves, its clear bits done; without a record the step would end in `w.tickFree`. -/

section
variable {w : State} {q : Pending} (hw : w.pending = none) (hc : w.clearFifos = w)
include hc

/-- A record with more delayed instructions counts down. -/
theorem State.finish_countdown (hn : 1 < q.n) : (w.withPending (some q)).finish (some q) =
    .next (w.tickFree.withPending (some { q with n := q.n - 1 })) := by
  have hclear : ∀ p, (w.withPending p).clearFifos = w.withPending p := fun p => congrArg (·.withPending p) hc
  have hsettle : (w.withPending (some q)).settle (some q) = .ok (w.withPending (some { q with n := q.n - 1 })) := by
    rw [State.settle, if_pos hn]
    rfl
  rw [State.finish, hclear, hsettle]
  exact congrArg (Host.Outcome.next ∘ State.tickFree) (hclear _)

include hw

/-- A transfer that is not taken ends without effect. -/
theorem State.finish_notTaken (hn : q.n ≤ 1) (ht : q.taken = false) :
    (w.withPending (some q)).finish (some q) = .next w.tickFree := by
  have hclear : (w.withPending (some q)).clearFifos = w.withPending (some q) := congrArg (·.withPending (some q)) hc
  have hnone : w.withPending none = w := hw ▸ w.withPending_self
  have hsettle : (w.withPending (some q)).settle (some q) = .ok w := by
    rw [State.settle, if_neg (by omega), ht]
    exact congrArg Except.ok hnone
  rw [State.finish, hclear, hsettle]
  exact congrArg (Host.Outcome.next ∘ State.tickFree) hc

/-- A transfer that is taken is performed on the state without the record. -/
theorem State.settle_taken (hn : q.n ≤ 1) (ht : q.taken = true) :
    (w.withPending (some q)).clearFifos.settle (some q) = w.action q.kind q.target w.ipc := by
  have hclear : (w.withPending (some q)).clearFifos = w.withPending (some q) := congrArg (·.withPending (some q)) hc
  have hnone : w.withPending none = w := hw ▸ w.withPending_self
  rw [hclear, State.settle, if_neg (by omega), ht]
  exact congrArg (fun s : State => s.action q.kind q.target w.ipc) hnone

theorem State.finish_performed {t : State} (hn : q.n ≤ 1) (ht : q.taken = true)
    (ha : w.action q.kind q.target w.ipc = .ok t) :
    (w.withPending (some q)).finish (some q) = .next t.clearFifos.tickFree := by
  rw [State.finish, State.settle_taken hw hc hn ht, ha]

theorem State.finish_refused {e : Refusal} (hn : q.n ≤ 1) (ht : q.taken = true)
    (ha : w.action q.kind q.target w.ipc = .error e) :
    (w.withPending (some q)).finish (some q) = .refused e := by
  rw [State.finish, State.settle_taken hw hc hn ht, ha]

end

/-! ### The action (R472, R490, R510, R512) -/

/-- Every action but a jump uses the stack, and is refused with odd sp (R206). -/
theorem State.action_odd {s : State} {kind : XferKind} (target ret : Word) (hk : kind ≠ .jump)
    (ho : s.sp.odd = true) : s.action kind target ret = .error .oddLongAddress := by
  have hpush : ∀ hi lo, s.pushFrame hi lo = .error .oddLongAddress := fun _ _ => if_pos ho
  have hpop : s.popFrame = .error .oddLongAddress := if_pos ho
  cases kind with
  | jump => exact absurd rfl hk
  | call => rw [State.action, State.callTo, hpush]
  | ret => rw [State.action, State.returnFromCall, hpop]
  | iret => rw [State.action, State.returnFromInterrupt, hpop]

/-- A write of a long word writes memory only. -/
theorem State.write64_form (s : State) (a : Word) (v : Long) : ∃ μ, s.write64 a v = { s with mem := μ } := by
  have h32 : ∀ (s : State) (a v : Word), ∃ μ, s.write32 a v = { s with mem := μ } := by
    intro s a v
    unfold State.write32
    split
    · exact ⟨_, rfl⟩
    · exact ⟨s.mem, rfl⟩
  obtain ⟨μ, hlo⟩ := h32 s a v.lo
  obtain ⟨ν, hhi⟩ := h32 { s with mem := μ } (a + 1) v.hi
  exact ⟨ν, by rw [State.write64, hlo, hhi]⟩

/-- An action writes memory, sp, ipc and pswr only. -/
theorem State.action_form {s t : State} {kind : XferKind} {target ret : Word}
    (h : s.action kind target ret = .ok t) : (∀ j, j ≠ 7 → t.ar j = s.ar j) ∧
    ∃ μ α ipc pswr, t = { s with mem := μ, ars := α, ipc := ipc, pswr := pswr } := by
  have hsp : ∀ (s : State) (v : Word) (j : Ix), j ≠ 7 → (s.setAr 7 v).ar j = s.ar j :=
    fun s v j hj => by rw [State.ar_setAr, if_neg (Ne.symm hj)]
  rcases State.action_ok h with ⟨_, rfl⟩ | ⟨_, _, rfl⟩ | ⟨_, _, rfl⟩ | ⟨_, _, rfl⟩
  · exact ⟨fun _ _ => rfl, _, _, _, _, rfl⟩
  · obtain ⟨μ, hμ⟩ := s.write64_form s.sp (Long.ofHalves s.pswr ret)
    rw [hμ]
    exact ⟨hsp _ _, _, _, _, _, rfl⟩
  · exact ⟨hsp s _, _, _, _, _, rfl⟩
  · exact ⟨hsp s _, _, _, _, _, rfl⟩

/-- What a step keeps that ends with the action of a delayed transfer, against the step without one: `u` and `t` are
the states after the two. -/
structure KeepsOverAction (u t : State) : Prop where
  ar : ∀ j, j ≠ 7 → t.ar j = u.ar j
  gr : ∀ j, t.gr j = u.gr j
  ireq : t.ireq = u.ireq
  vector : KeepsVector u t
  peripherals : KeepsPeripherals u t

theorem State.action_keeps {w t : State} {kind : XferKind} {target ret : Word}
    (ha : w.action kind target ret = .ok t) : KeepsOverAction w.tickFree t.clearFifos.tickFree := by
  obtain ⟨har, μ, α, ipc, pswr, rfl⟩ := State.action_form ha
  exact {
    ar := har
    gr := fun _ => rfl
    ireq := rfl
    vector := ⟨rfl, rfl, rfl, rfl, rfl, rfl, rfl, rfl, rfl, rfl, rfl, rfl⟩
    peripherals := ⟨rfl, rfl, rfl, rfl, rfl, rfl, rfl, rfl, rfl, rfl, rfl, rfl, rfl⟩ }

/-- The two words of a frame inside MemMap (R490, R510). -/
theorem State.read64_halves {s : State} (k : Nat) {a : Word} (hlo : s.backed a = true)
    (hhi : s.backed (a + 1) = true) : (s.read64 k a).lo = Memory.word s.mem a ∧
      (s.read64 k a).hi = Memory.word s.mem (a + 1) := by
  rw [State.read64, Long.lo_ofHalves, Long.hi_ofHalves]
  exact ⟨if_pos hlo, if_pos hhi⟩

/-- A call with even sp pushes the frame {pswr, ret} and jumps (R490). -/
theorem State.action_call {s : State} (target ret : Word) (ho : s.sp.odd = false) :
    ∃ t, s.action .call target ret = .ok t ∧ t.ipc = target ∧ t.sp = s.sp + 2 ∧ t.pswr = s.pswr ∧
      wordStored s.sp ret s t ∧ wordStored (s.sp + 1) s.pswr s t ∧ sameMemoryBut s.sp 2 s t := by
  have hlo := State.wordStored_write64_lo s s.sp (Long.ofHalves s.pswr ret)
  have hhi := State.wordStored_write64_hi s s.sp (Long.ofHalves s.pswr ret)
  rw [Long.lo_ofHalves] at hlo
  rw [Long.hi_ofHalves] at hhi
  exact ⟨_, State.callTo_of_even s target ret ho, rfl, State.ar_setAr_self .., by simp, hlo, hhi,
    State.byteAt_write64 s s.sp _⟩

/-- A return with even sp and a frame inside MemMap restores ipc, an `ireturn` pswr too (R510, R512). -/
theorem State.action_return {s : State} {kind : XferKind} (target ret : Word) (hk : kind = .ret ∨ kind = .iret)
    (ho : s.sp.odd = false) (hlo : s.backed (s.sp - 2) = true) (hhi : s.backed (s.sp - 1) = true) :
    ∃ t, s.action kind target ret = .ok t ∧ t.ipc = Memory.word s.mem (s.sp - 2) ∧ t.sp = s.sp - 2 ∧ t.mem = s.mem ∧
      (kind = .ret → t.pswr = s.pswr) ∧
      (kind = .iret → t.pswr = pswrWritten s.pswr (Memory.word s.mem (s.sp - 1))) := by
  have hnext : s.sp - 2 + 1 = s.sp - 1 := by bv_omega
  obtain ⟨hipc, hpswr⟩ := State.read64_halves 65 hlo (by rw [hnext, hhi])
  rw [hnext] at hpswr
  rcases hk with rfl | rfl
  · exact ⟨_, State.returnFromCall_of_even s ho, hipc, State.ar_setAr_self .., rfl, fun _ => rfl, by simp⟩
  · exact ⟨_, State.returnFromInterrupt_of_even s ho, hipc, State.ar_setAr_self .., rfl, by simp,
      fun _ => congrArg (pswrWritten s.pswr) hpswr⟩

/-- Settles O33: the instruction leaves the same state `w` beside any record, and what the record does at its end is
done on `w`. -/
theorem delayCountdown : Obligations.DelayCountdown := by
  intro s u i q hq hx h _ hu
  obtain ⟨w, hw, hc, rfl, he⟩ := exec_withPending (s := { s with pending := none }) (some q) rfl hx hu h
  have hs : ({ s with pending := none } : State).withPending (some q) = s := hq ▸ s.withPending_self
  rw [hs] at he
  refine ⟨fun hn => ?_, fun hn ht => ?_, fun hn ht hk => ?_, fun hn ht hk ho => ?_, fun hn ht hk ho hlo hhi => ?_,
    fun hn ht hk ho => ?_⟩
  · exact he.trans (State.finish_countdown hc hn)
  · exact he.trans (State.finish_notTaken hw hc hn ht)
  · have ha : w.action q.kind q.target w.ipc = .ok { w with ipc := q.target } := by rw [hk]; rfl
    refine (he.trans (State.finish_performed hw hc hn ht ha)).trans ?_
    exact congrArg (fun v : State => Host.Outcome.next { v.tickFree with ipc := q.target }) hc
  · obtain ⟨t, ha, hipc, hsp, hpswr, hret, hold, hmem⟩ := State.action_call (s := w) q.target w.ipc ho
    obtain ⟨har, hgr, hireq, hvector, hperipherals⟩ := State.action_keeps ha
    rw [← hk] at ha
    exact ⟨_, he.trans (State.finish_performed hw hc hn ht ha), hipc, hsp, hperipherals.pending.trans hw, hret, hold,
      hmem, hpswr, har, hgr, hireq, hvector, hperipherals⟩
  · obtain ⟨t, ha, hipc, hsp, hmem, hret, hiret⟩ := State.action_return (s := w) q.target w.ipc hk ho hlo hhi
    obtain ⟨har, hgr, hireq, hvector, hperipherals⟩ := State.action_keeps ha
    refine ⟨_, he.trans (State.finish_performed hw hc hn ht ha), hipc, hsp, hperipherals.pending.trans hw,
      fun x => congrArg (Memory.byteAt · x) hmem, hret, fun hk n hn => ?_, har, hgr, hireq, hvector, hperipherals⟩
    exact (State.psw_congr (s := { w with pswr := _ }) (hiret hk) n).trans (pswrWritten_bit w.pswr _ n hn)
  · exact he.trans (State.finish_refused hw hc hn ht (State.action_odd _ _ hk ho))

end Sys2Proof.Machine
end

section
/-! PROOFS. Decoding and encoding: what the decoder reads from a word, that it reads an instruction back from its
words, and that the constructors of one instruction have one meaning. -/

namespace Sys2Proof

open Sys2Proof.Machine

/-! ### Reading (R263) -/

/-- A low word with the constant the decoder gives it. -/
theorem Code.normal_constantOf (l : Low) (w1 : Word) : Code.normal ⟨l, constantOf l w1⟩ = true := by
  cases h : l.long <;> simp [Code.normal, constantOf, h]

/-- The constant of an instruction, whatever follows it where it is short. -/
theorem Code.constantOf_k {c : Code} {w1 : Word} (h : c.normal = true) (hk : c.low.long = true → w1 = c.k) :
    constantOf c.low w1 = c.k := by
  cases hl : c.low.long with
  | true => rw [constantOf, if_pos hl, hk hl]
  | false =>
    have hzero : c.k = 0 := by simpa [Code.normal, hl] using h
    rw [constantOf, if_neg (by simp [hl]), hzero]

theorem Low.wellFormed_iff (l : Low) : l.wellFormed = true ↔ l.defect = none := Option.isNone_iff_eq_none

/-- What the decoder reads: the instruction of the tables the first word stands for, with the second word as its
constant where it is long. -/
theorem decode_ok_iff (w0 w1 : Word) (i : Instr) : decode w0 w1 = .ok i ↔
    ∃ l, lowOfWord w0 = some l ∧ l.wellFormed = true ∧ i = .ofCode ⟨l, constantOf l w1⟩ := by
  unfold decode
  cases hw : lowOfWord w0 with
  | none => simp
  | some l =>
    simp only [Option.some.injEq, Low.wellFormed_iff, exists_eq_left']
    cases hd : l.defect with
    | none => simp [eq_comm (a := i)]
    | some d => simp

/-- What an instruction read by the decoder stands for. -/
theorem decode_code {w0 w1 : Word} {i : Instr} (h : decode w0 w1 = .ok i) :
    ∃ l, lowOfWord w0 = some l ∧ l.wellFormed = true ∧ i.code = ⟨l, constantOf l w1⟩ := by
  obtain ⟨l, hw, hl, rfl⟩ := (decode_ok_iff w0 w1 i).mp h
  exact ⟨l, hw, hl, Instr.code_ofCode _ (Code.normal_constantOf l w1)⟩

/-- The first word alone says whether an instruction is read, and which low word it has. -/
theorem decode_of_lowOfWord {w0 : Word} {l : Low} (hw : lowOfWord w0 = some l) (hl : l.wellFormed = true) (w1 : Word) :
    ∃ i, decode w0 w1 = .ok i ∧ i.code.low = l := by
  refine ⟨_, (decode_ok_iff w0 w1 _).mpr ⟨l, hw, hl, rfl⟩, ?_⟩
  rw [Instr.code_ofCode _ (Code.normal_constantOf l w1)]

/-! ### The zero word (R262) -/

theorem lowOfWord_zero : lowOfWord 0 = some lowVnul := dif_pos rfl

theorem decode_zero (w1 : Word) : decode 0 w1 = .ok (.vnul false) :=
  (decode_ok_iff 0 w1 _).mpr ⟨lowVnul, lowOfWord_zero, rfl, rfl⟩

theorem lowIndex_vnul : lowIndex lowVnul = 0 := congrArg (BitVec.ofNat 32) codecLow_enc_vnul

theorem wordOfLow_vnul : wordOfLow lowVnul = 0 := dif_neg (not_not_intro lowIndex_vnul)

/-- Settles O1: the decoder takes the zero word apart from the others, and the numbering gives it to `vnul`. -/
theorem decodeZeroWord : Obligations.DecodeZeroWord := by
  refine ⟨decode_zero, congrArg ([·]) wordOfLow_vnul, ?_⟩
  have hzero : BitVec.ofNat 32 (0 % 2 ^ 32) = 0 := rfl
  rw [decodeTableWord, hzero, decode_zero]

/-- Settles O2: the first word gives the low word, and the second is its constant. -/
theorem decodeParameter : Obligations.DecodeParameter := by
  refine ⟨decode_zero, fun w0 v w i h => ?_, fun w0 w1 i h hlong => ?_, fun l hl => ?_, fun w0 w1 i h => ?_⟩
  · obtain ⟨l, hw, hl, hi⟩ := decode_code h
    rw [hi]
    exact decode_of_lowOfWord hw hl w
  · obtain ⟨l, _, _, hi⟩ := decode_code h
    rw [hi] at hlong ⊢
    exact if_pos hlong
  · exact ⟨wordOfLow l, decode_of_lowOfWord (lowOfWord_wordOfLow l hl) hl⟩
  · obtain ⟨l, _, hl, hi⟩ := decode_code h
    rw [Instr.wellFormed, hi]
    exact hl

/-! ### Reading back (R261, R267, R268) -/

theorem encode_length (i : Instr) : (encode i).length = if i.code.low.long then 2 else 1 := by
  unfold encode; split <;> rfl

theorem encode_first (i : Instr) (w : Word) : (encode i ++ [w]).getD 0 0 = wordOfLow i.code.low := by
  unfold encode; split <;> rfl

/-- After its low word a long instruction has its constant. -/
theorem encode_second {i : Instr} (h : i.code.low.long = true) (w : Word) : (encode i ++ [w]).getD 1 0 = i.code.k := by
  rw [encode, if_pos h]; rfl

/-- Settles O3: the first word is read back as the low word, and the second is the constant where there is one. -/
theorem decodeEncode : Obligations.DecodeEncode := by
  intro i w hi
  have hk : constantOf i.code.low ((encode i ++ [w]).getD 1 0) = i.code.k :=
    Code.constantOf_k i.code_normal fun h => encode_second h w
  have hdecode := decode_wordOfLow i.code.low ((encode i ++ [w]).getD 1 0) ((Low.wellFormed_iff _).mp hi)
  rw [hk] at hdecode
  refine ⟨encode_length i, ?_, i.code_canon, congrArg Instr.ofCode i.code_canon⟩
  rw [encode_first]
  exact hdecode

/-- Settles O4: the meaning of a constructor is that of the instruction it stands for. -/
theorem constructorsAgree : Obligations.ConstructorsAgree := by
  intro i j h s
  rw [exec_eq_run, exec_eq_run, h]

end Sys2Proof
end

section
/-! PROOFS. The refusals: a form outside the tables by its defect, a long instruction at an odd address, a 64-bit
access at an odd address, and the checks of a vector instruction. -/

namespace Sys2Proof.Machine

open Sys2Proof

/-! ### Forms outside the tables (R325, R716) -/

/-- An instruction outside the tables is refused with the name of its defect. -/
theorem exec_illFormed {i : Instr} {d : Defect} (s : State) (h : i.code.low.defect = some d) :
    exec i s = .refused (.illFormed d) := by
  rw [exec_eq_run, run]
  cases hl : i.code.low with
  | scalar p l r =>
    rw [hl, Low.defect] at h
    simp only [runScalar, h]
  | vector p n l r =>
    rw [hl, Low.defect] at h
    simp only [runVector, h]
  | bare p b => rw [hl] at h; cases h

/-- The defect of a left part is the first looked for. -/
theorem scalarDefect_of_left {l : SLeft} {d : Defect} (h : l.defect = some d) (r : SRight) :
    scalarDefect l r = some d := by
  rw [scalarDefect, h]; rfl

/-- The defect of a right part beside a left part without one. -/
theorem scalarDefect_of_right {l : SLeft} {r : SRight} {d : Defect} (hl : l.defect = none) (h : r.defect = some d) :
    scalarDefect l r = some d := by
  rw [scalarDefect, hl, h]; rfl

/-- A multiply step with a destination and another second operand than gr7 (R575, R576). -/
theorem SRight.defect_multiplyOperand {f : AluForm} {fn : AluFn} {a b d : Ix} (hfn : fn = .mulFirst ∨ fn = .mulNext)
    (hf : f.dst = some d) (hb : b ≠ 7) : (SRight.alu f fn a b).defect = some .multiplyOperand := by
  rw [SRight.defect, hf, Option.isNone_some, Bool.and_false]
  rcases hfn with rfl | rfl <;> exact if_neg hb

/-- `C<<` and `C>>` by 2 to 31 (R606, R607). -/
theorem SRight.defect_rotateAmount {kind : ShiftKind} {d a : Ix} {n : Fin 33} (hk : kind.throughCarry = true)
    (h2 : 2 ≤ n.val) (h31 : n.val ≤ 31) : (SRight.shift kind d a n).defect = some .rotateAmount := by
  have hne : ∀ m : Fin 33, m.val < 2 ∨ m.val = 32 → (n == m) = false := by
    intro m hm
    rw [beq_eq_false_iff_ne]
    rintro rfl
    omega
  have hnul : shiftIsNul n = false := by
    rw [shiftIsNul, hne 0 (.inl (by decide)), hne 32 (.inr rfl)]; rfl
  simp [SRight.defect, hk, hnul, bne, hne 1 (.inl (by decide))]

/-- `store vregs` with n other than 5 (R790). -/
theorem vectorDefect_storeRegs {n : Rep} (h : n ≠ 4) (l : VLeft) :
    vectorDefect n l .storeRegs = some .storeVregsCount := by
  simp [vectorDefect, VRight.operandsOk, h]

/-- `wtw` beside `X + 1` (R637). -/
theorem vectorDefect_wtwInc (n : Rep) {l : VLeft} (b : Buf) (h : l.wtw = true) :
    vectorDefect n l (.arith false ⟨false, .buf b⟩ ⟨false, .one⟩) = some .wtwWithArithmetic := by
  simp [vectorDefect, VRight.operandsOk, VArg.bufOrNull, VArg.isOne, VRight.usesActive, h]

/-! ### Scalar instructions (R206, R267) -/

/-- A long instruction at an odd address (R267). -/
theorem exec_longAtOddAddress {i : Instr} {s : State} (hi : i.wellFormed = true) (hlong : i.code.low.long = true)
    (ho : s.ipc.odd = true) : exec i s = .refused .longAtOddAddress := by
  rw [exec_eq_run, run]
  cases hl : i.code.low with
  | scalar p l r =>
    have hd : scalarDefect l r = none := by
      rw [Instr.wellFormed, hl] at hi
      exact (Low.wellFormed_iff _).mp hi
    rw [hl, Low.long] at hlong
    simp only [runScalar, hd, hlong, ho, Bool.and_self, if_true]
  | vector p n l r => rw [hl] at hlong; cases hlong
  | bare p b => rw [hl] at hlong; cases hlong

/-- A scalar instruction whose left part is refused; nothing before the left part writes an address register. -/
theorem exec_leftRefused {i : Instr} {s : State} {p : Bool} {l : SLeft} {r : SRight} {k : Word} {e : Refusal}
    (hc : i.code = ⟨.scalar p l r, k⟩) (hi : i.wellFormed = true) (ho : i.code.low.long = true → s.ipc.odd = false)
    (he : ∀ t n, t.ars = s.ars → s.leftPart t l k n = .error e) : exec i s = .refused e := by
  rw [Instr.wellFormed, hc] at hi
  rw [hc] at ho
  have hd : scalarDefect l r = none := (Low.wellFormed_iff _).mp hi
  have hodd : (l.long && s.ipc.odd) = false := by
    cases hl : l.long with
    | true => exact ho hl
    | false => rfl
  have hleft := he ((s.rightPart r).advance l.len) (s.slots ⟨.scalar p l r, k⟩) (by simp)
  rw [exec_eq_run, hc]
  simp only [run, runScalar, hd, hodd, hleft, Bool.false_eq_true, if_false]

/-- A 64-bit load at an odd address (R206). -/
theorem State.doLoad_odd {s : State} (t : State) {dst : Reg} {m : Mode} {k : Word} (hw : dst.wide = true)
    (ho : (m.ea k 2 s).odd = true) : s.doLoad t dst m k = .error .oddLongAddress := by
  have hload : s.load true (m.ea k 2 s) = .error .oddLongAddress := if_pos ho
  rw [State.doLoad, Reg.step, hw, if_pos rfl, hload]

/-- A 64-bit store at an odd address (R206). -/
theorem State.doStore_odd {s : State} (t : State) {src : Reg} {m : Mode} {k : Word} (hw : src.wide = true)
    (ho : (m.ea k 2 s).odd = true) : s.doStore t m src k = .error .oddLongAddress := by
  have hstore : t.store true (m.ea k 2 s) (s.readReg src) = .error .oddLongAddress := if_pos ho
  rw [State.doStore, Reg.step, hw, if_pos rfl, hstore]

/-- The address of a 64-bit pop is odd with sp. -/
theorem Mode.ea_pop_odd {s : State} (k : Word) (ho : s.sp.odd = true) : ((Mode.decAr 7).ea k 2 s).odd = true :=
  (Word.odd_sub_two s.sp).trans ho

/-- A transfer, not delayed, that is taken and uses the stack with odd sp (R206, R389). -/
theorem State.doXfer_odd {s t : State} {c : Cond} {x : Xfer} (k : Word) (n : Nat) (hp : s.pending = none)
    (hc : c.holds s = true) (hx : x.kind ≠ .jump) (ht : t.ars = s.ars) (ho : s.sp.odd = true) :
    s.doXfer t c false x k n = .error .oddLongAddress := by
  have hsp : t.sp.odd = true := by rwa [State.sp, State.ar, ht]
  rw [State.doXfer, hp, hc]
  exact State.action_odd _ _ hx hsp

/-! ### Vector instructions (R633, R760) -/

/-- A vector instruction whose mode uses an odd register. -/
theorem runVector_odd (p : Bool) {n : Rep} {l : VLeft} {r : VRight} {s : State} (hd : vectorDefect n l r = none)
    (hw : s.wfifoBlocks (l.mem.wfifoLoad (n.val + 1)) l.ftw = false) (he : s.vectorError (n.val + 1) l.mem r = false)
    (ho : s.vectorOdd l.mem = true) : runVector p n l r s = .refused .oddVectorAddress := by
  simp only [runVector, hd, hw, he, ho, Bool.false_eq_true, if_false, if_true]

/-- A vector instruction whose `vsum` finds another number of rows than sb2 says. -/
theorem runVector_rowCount (p : Bool) {n : Rep} {l : VLeft} {r : VRight} {s : State} (hd : vectorDefect n l r = none)
    (hw : s.wfifoBlocks (l.mem.wfifoLoad (n.val + 1)) l.ftw = false) (he : s.vectorError (n.val + 1) l.mem r = false)
    (ho : s.vectorOdd l.mem = false) (hr : s.rowsAgree r = false) :
    runVector p n l r s = .refused .rowCountMismatch := by
  simp only [runVector, hd, hw, he, ho, hr, Bool.not_false, Bool.false_eq_true, if_false, if_true]

/-- The modes that use an address register, with an odd one. -/
theorem State.vectorOdd_of_ar {s : State} {m : VMem} {a : Ix} (ho : (s.ar a).odd = true)
    (hm : m.mode ∈ [some (.ar a), some (.arInc a), some (.decAr a), some (.arIncGr a), some (.arAddGr a)]) :
    s.vectorOdd m = true := by
  simp only [List.mem_cons, List.not_mem_nil, or_false] at hm
  rcases hm with h | h | h | h | h <;> simp [State.vectorOdd, h, VMode.odd, ho]

/-- The modes that use a general-purpose register, with an odd one. -/
theorem State.vectorOdd_of_gr {s : State} {m : VMem} {a : Ix} (ho : (s.gr a).odd = true)
    (hm : m.mode ∈ [some (.gr a), some (.arSetGr a), some (.arIncGr a), some (.arAddGr a)]) :
    s.vectorOdd m = true := by
  simp only [List.mem_cons, List.not_mem_nil, or_false] at hm
  rcases hm with h | h | h | h <;> simp [State.vectorOdd, h, VMode.odd, ho]

/-! ### The obligation -/

/-- Settles O18: each form named has its defect, each access is refused by the operation that makes it, and the
checks of a vector instruction come in their order. -/
theorem refusals : Obligations.Refusals := by
  refine ⟨fun i s d => exec_illFormed s, ?forms, fun i s => exec_longAtOddAddress, ?load, ?store, ?stack, ?xfer, ?vector⟩
  case forms =>
    intro s p a d k r q n l x c
    refine ⟨?pcDst, ?intrDst, ?pcData, ?vctl, fun hq => ?narrowing, fun hg => ?dag, ?bothParts, fun hn => ?storeRegs,
      ?wtw, ?flagsOnly, ?operand, ?rotate⟩
    case pcDst =>
      simp only [List.forall_mem_cons]
      exact ⟨exec_illFormed s rfl, exec_illFormed s rfl, exec_illFormed s rfl, by simp⟩
    case intrDst =>
      simp only [List.forall_mem_cons]
      exact ⟨exec_illFormed s rfl, exec_illFormed s rfl, by simp⟩
    case pcData => exact exec_illFormed s rfl
    case vctl => exact exec_illFormed s rfl
    case narrowing =>
      refine exec_illFormed s (scalarDefect_of_left ?_ r)
      cases q with
      | pswrpc => exact absurd rfl hq
      | _ => rfl
    case dag =>
      have hdag : (SLeft.arMod (.addGr d a)).defect = some .dagGroups := if_neg (by tauto)
      exact exec_illFormed s (scalarDefect_of_left hdag r)
    case bothParts =>
      have hpair : pairDefect (.copy (.gr d) (.ar a)) (.alu (.std d) .add a a) = some .bothPartsWriteGr :=
        if_pos (List.mem_singleton_self d)
      exact exec_illFormed s hpair
    case storeRegs => exact exec_illFormed s (vectorDefect_storeRegs hn l)
    case wtw =>
      rintro ⟨b, rfl⟩ hw
      exact exec_illFormed s (vectorDefect_wtwInc n b hw)
    case flagsOnly =>
      intro fn hfn b
      simp only [List.mem_cons, List.not_mem_nil, or_false] at hfn
      rcases hfn with rfl | rfl <;> exact exec_illFormed s rfl
    case operand =>
      intro fn hfn f hf b hb
      simp only [List.mem_cons, List.not_mem_nil, or_false] at hfn hf
      have hdst : f.dst = some d := by rcases hf with rfl | rfl <;> rfl
      exact exec_illFormed s (scalarDefect_of_right rfl (SRight.defect_multiplyOperand hfn hdst hb))
    case rotate =>
      intro kind hkind amount h2 h31
      simp only [List.mem_cons, List.not_mem_nil, or_false] at hkind
      have hk : kind.throughCarry = true := by rcases hkind with rfl | rfl <;> rfl
      exact exec_illFormed s (scalarDefect_of_right rfl (SRight.defect_rotateAmount hk h2 h31))
  case load =>
    intro i s p dst m r k hc hi ho hw hodd
    exact exec_leftRefused hc hi ho fun t _ _ => State.doLoad_odd t hw hodd
  case store =>
    intro i s p src m r k hc hi ho hw hodd
    exact exec_leftRefused hc hi ho fun t _ _ => State.doStore_odd t hw hodd
  case stack =>
    intro i s p x r k hc hi hw hodd
    have hshort : i.code.low.long = false := by rcases hc with hc | hc <;> rw [hc] <;> rfl
    have ho : i.code.low.long = true → s.ipc.odd = false := fun h => absurd (hshort ▸ h) (by decide)
    rcases hc with hc | hc
    · exact exec_leftRefused hc hi ho fun t _ _ => State.doStore_odd t hw hodd
    · exact exec_leftRefused hc hi ho fun t _ _ => State.doLoad_odd t hw (Mode.ea_pop_odd k hodd)
  case xfer =>
    intro i s p c x r k hc hi ho hp hholds hx hodd
    have hkind : x.kind ≠ .jump := by
      rcases hx with rfl | rfl | ⟨_, rfl⟩ | ⟨_, rfl⟩ <;> simp [Xfer.kind]
    exact exec_leftRefused hc hi ho fun _ n ht => State.doXfer_odd k n hp hholds hkind ht hodd
  case vector =>
    intro i s p n l r hc hd hw he
    have hrun : exec i s = runVector p n l r s := by rw [exec_eq_run, hc, run]
    refine ⟨fun a h => hrun.trans (runVector_odd p hd hw he ?_), fun m sh x y hr hrows ho => ?_⟩
    · rcases h with ⟨hm, ha⟩ | ⟨hm, ha⟩
      · exact State.vectorOdd_of_ar ha hm
      · exact State.vectorOdd_of_gr ha hm
    · have hagree : s.rowsAgree r = false := by rw [hr]; exact beq_false_of_ne hrows
      exact hrun.trans (runVector_rowCount p hd hw he ho hagree)

end Sys2Proof.Machine
end

section
/-! PROOFS. The left part of a scalar instruction: one that is ready answers, and a statement about a row follows from
what its left part does. -/

namespace Sys2Proof.Machine

open Sys2Proof

/-! ### Left parts that answer (R206, R477) -/

/-- What a load of one or two words reads. -/
def State.loaded (s : State) (wide : Bool) (a : Word) : Long :=
  if wide then s.read64 0 a else (s.read32 0 a).setWidth 64

/-- The state after a store of one or two words. -/
def State.stored (s : State) (wide : Bool) (a : Word) (v : Long) : State :=
  if wide then s.write64 a v else s.write32 a v.lo

theorem State.load_of_even {s : State} {wide : Bool} {a : Word} (h : wide = true → a.odd = false) :
    s.load wide a = .ok (s.loaded wide a) := by
  unfold State.load State.loaded
  cases wide with
  | true => rw [h rfl]; rfl
  | false => rfl

theorem State.store_of_even (s : State) {wide : Bool} {a : Word} (v : Long) (h : wide = true → a.odd = false) :
    s.store wide a v = .ok (s.stored wide a v) := by
  unfold State.store State.stored
  cases wide with
  | true => rw [h rfl]; rfl
  | false => rfl

/-- A load that is not odd (R340 to R350). -/
theorem State.doLoad_of_even {s : State} (t : State) {dst : Reg} {m : Mode} {k : Word}
    (h : dst.wide = true → (m.ea k dst.step s).odd = false) : s.doLoad t dst m k =
      .ok ((t.applyUpd (m.upd k dst.step s)).writeReg dst (s.loaded dst.wide (m.ea k dst.step s))) := by
  rw [State.doLoad, State.load_of_even h]

/-- A store that is not odd (R355 to R364). -/
theorem State.doStore_of_even {s : State} (t : State) {src : Reg} {m : Mode} {k : Word}
    (h : src.wide = true → (m.ea k src.step s).odd = false) : s.doStore t m src k =
      .ok ((t.stored src.wide (m.ea k src.step s) (s.readReg src)).applyUpd (m.upd k src.step s)) := by
  rw [State.doStore, State.store_of_even t _ h]

/-- The address of a 64-bit pop is even with sp. -/
theorem Mode.ea_pop_even {s : State} {dst : Reg} (k : Word) (h : dst.wide = true → s.sp.odd = false) :
    dst.wide = true → ((Mode.decAr 7).ea k dst.step s).odd = false := by
  intro hw
  rw [Reg.step, if_pos hw]
  exact (Word.odd_sub_two s.sp).trans (h hw)

/-- Every action answers with even sp, and a jump with any (R206). -/
theorem State.action_of_even {s : State} {kind : XferKind} (target ret : Word)
    (h : kind ≠ .jump → s.sp.odd = false) : ∃ t, s.action kind target ret = .ok t := by
  cases kind with
  | jump => exact ⟨_, rfl⟩
  | call => exact ⟨_, State.callTo_of_even s target ret (h nofun)⟩
  | ret => exact ⟨_, State.returnFromCall_of_even s (h nofun)⟩
  | iret => exact ⟨_, State.returnFromInterrupt_of_even s (h nofun)⟩

/-- Only a mode with a constant depends on the constant. -/
theorem Mode.ea_constOf (m : Mode) (k step : Word) (s : State) :
    m.ea (if m.long then k else 0) step s = m.ea k step s := by
  cases m <;> rfl

theorem Mode.upd_constOf (m : Mode) (k step : Word) (s : State) :
    m.upd (if m.long then k else 0) step s = m.upd k step s := by
  cases m <;> rfl

/-- A left part that is ready answers. -/
theorem State.leftPart_of_ready {s t : State} {l : SLeft} {k : Word} (hl : leftReady l k s) (hp : s.pending = none)
    (ht : t.ars = s.ars) (n : Nat) : ∃ u, s.leftPart t l (l.constOf k) n = .ok u := by
  obtain ⟨_, hl⟩ := hl
  cases l with
  | load d m => exact ⟨_, State.doLoad_of_even t fun hw => (Mode.ea_constOf m k _ s).symm ▸ hl hw⟩
  | store m d => exact ⟨_, State.doStore_of_even t fun hw => (Mode.ea_constOf m k _ s).symm ▸ hl hw⟩
  | push d => exact ⟨_, State.doStore_of_even (m := .arInc 7) t hl⟩
  | pop d => exact ⟨_, State.doLoad_of_even (m := .decAr 7) t (Mode.ea_pop_even _ hl)⟩
  | xfer c d x =>
    simp only [State.leftPart, State.doXfer, hp]
    cases d with
    | true => exact ⟨_, rfl⟩
    | false =>
      cases hc : c.holds s with
      | false => exact ⟨_, rfl⟩
      | true =>
        have hsp : t.sp = s.sp := State.ar_congr ht 7
        exact State.action_of_even _ _ fun hk => hsp ▸ (hl hc).2 rfl hk
  | _ => exact ⟨_, rfl⟩

/-- No left part makes a request. -/
theorem State.leftPart_ireq {s t u : State} {l : SLeft} {k : Word} {n : Nat} (h : s.leftPart t l k n = .ok u) :
    u.ireq = t.ireq := by
  have hload : ∀ {d m}, s.doLoad t d m k = .ok u → u.ireq = t.ireq := by
    intro d m h
    obtain ⟨v, _, rfl⟩ := State.doLoad_ok h
    simp
  have hstore : ∀ {d m}, s.doStore t m d k = .ok u → u.ireq = t.ireq := by
    intro d m h
    obtain ⟨v, hv, rfl⟩ := State.doStore_ok h
    rcases State.store_ok hv with ⟨_, _, rfl⟩ | ⟨_, rfl⟩ <;> simp
  cases l with
  | load d m => exact hload h
  | pop d => exact hload h
  | store m d => exact hstore h
  | push d => exact hstore h
  | copy d r => injection h with h; subst h; simp
  | setConst d => injection h with h; subst h; simp
  | xfer c d x =>
    rcases State.doXfer_ok h with ⟨_, _, rfl⟩ | ⟨_, _, rfl⟩ | ⟨_, _, _, h⟩ | ⟨_, _, _, rfl⟩
    · rfl
    · rfl
    · obtain ⟨_, _, _, _, _, rfl⟩ := State.action_form h; rfl
    · rfl
  | _ => injection h with h; subst h; rfl

/-! ### Rows (R330) -/

/-- A statement about a left part follows from what that part does beside any right part; the instruction then ends
without a transfer. -/
theorem leftRow_of_left {i : Instr} {s : State} {p : Bool} {l : SLeft} {k : Word} {r : SRight} {post : State → Prop}
    (hc : i.code = ⟨.scalar p l r, k⟩)
    (h : l.defect = none → ∀ n, ∃ u, s.leftPart ((s.rightPart r).advance l.len) l k n = .ok u ∧
      post u.clearFifos.tickFree) : leftRow i s post := by
  intro hi ho hp
  rw [Instr.wellFormed, hc] at hi
  rw [hc] at ho
  have hd : scalarDefect l r = none := (Low.wellFormed_iff _).mp hi
  have hodd : (l.long && s.ipc.odd) = false := by
    cases hl : l.long with
    | true => exact ho hl
    | false => rfl
  obtain ⟨u, hu, hpost⟩ := h (scalarDefect_left hd) (s.slots ⟨.scalar p l r, k⟩)
  refine ⟨_, ?_, hpost⟩
  calc exec i s = runScalar p l k r s := by rw [exec_eq_run, hc]; rfl
    _ = u.finish s.pending := runScalar_of_left hd hodd hu
    _ = .next u.clearFifos.tickFree := by rw [hp, State.finish_none]

theorem leftRow.mono {i : Instr} {s : State} {P Q : State → Prop} (h : leftRow i s P) (hPQ : ∀ t, P t → Q t) :
    leftRow i s Q := by
  intro hi ho hp
  obtain ⟨t, ht, hP⟩ := h hi ho hp
  exact ⟨t, ht, hPQ t hP⟩

/-- A statement about a right part follows from what the left part does beside it, whatever that left part is. -/
theorem rightRow_of_left {i : Instr} {s : State} {p : Bool} {l : SLeft} {k : Word} {r : SRight} {post : State → Prop}
    (hc : i.code = ⟨.scalar p l r, l.constOf k⟩)
    (h : scalarDefect l r = none → ∀ n u, s.leftPart ((s.rightPart r).advance l.len) l (l.constOf k) n = .ok u →
      post u.clearFifos.tickFree) : rightRow i l k s post := by
  intro hi hl hp
  have hd : scalarDefect l r = none := by
    rw [Instr.wellFormed, hc] at hi
    exact (Low.wellFormed_iff _).mp hi
  refine leftRow_of_left (post := post) hc (fun _ n => ?_) hi (fun hlong => hl.1 (by rwa [hc] at hlong)) hp
  obtain ⟨u, hu⟩ := State.leftPart_of_ready (t := (s.rightPart r).advance l.len) hl hp (by simp) n
  exact ⟨u, hu, h hd n u hu⟩

end Sys2Proof.Machine
end

section
/-! PROOFS. Writes to a register beside a right part: what the register holds, and what the write leaves alone. -/

namespace Sys2Proof.Machine

open Sys2Proof

/-! ### Frames, by the fields an operation writes -/

/-- The vector registers, matrices and buffers. -/
@[simp] def State.vectorFields (s : State) :=
  (s.f1cr, s.f2cr, s.nb1, s.nb2, s.sb1, s.sb2, s.vr, s.ws, s.wa, s.ram, s.afifo, s.wfifo)

/-- The peripheral registers and the hidden state. -/
@[simp] def State.peripheralFields (s : State) :=
  (s.gmicr, s.lmicr, s.port0, s.port1, s.timer0, s.timer1, s.gbs, s.lbs, s.pending, s.stuck, s.dmaSeen, s.params,
    s.inputs)

/-- An instruction that leaves the vector fields ends with the clear bits acting on the buffers (R58). -/
theorem KeepsVector.of_end {s u : State} (h : u.vectorFields = s.vectorFields) :
    KeepsVector s u.clearFifos.tickFree := by
  simp only [State.vectorFields, Prod.mk.injEq] at h
  obtain ⟨f1cr, f2cr, nb1, nb2, sb1, sb2, vr, ws, wa, ram, afifo, wfifo⟩ := h
  exact ⟨f1cr, f2cr, nb1, nb2, sb1, sb2, vr, ws, wa, ram, by simp [afifo], by simp [wfifo]⟩

theorem KeepsPeripherals.of_end {s u : State} (h : u.peripheralFields = s.peripheralFields) :
    KeepsPeripherals s u.clearFifos.tickFree := by
  simp only [State.peripheralFields, Prod.mk.injEq] at h
  obtain ⟨gmicr, lmicr, port0, port1, timer0, timer1, gbs, lbs, pending, stuck, dmaSeen, params, inputs⟩ := h
  exact ⟨gmicr, lmicr, port0, port1, timer0, timer1, gbs, lbs, pending, stuck, dmaSeen, params, inputs⟩

/-- The frame of a right part, when the left part writes `dst` only of the general-purpose registers and pswr. -/
theorem RightFrame.of_end {dst : Option Reg} {r : SRight} {s u : State}
    (gr : ∀ j, dst.bind Reg.grPart ≠ some j → u.gr j = (s.rightPart r).gr j)
    (pswr : dst ≠ some (.special (.one .pswr)) → u.pswr = (s.rightPart r).pswr)
    (ireq : u.ireq = (s.rightPart r).ireq) : RightFrame dst r s u.clearFifos.tickFree where
  gr j hr hd := (gr j hd).trans (State.rightPart_gr s r hr)
  pswr hd hf := (pswr hd).trans (State.rightPart_pswr s r hf)
  pswrHigh hd n hn := (State.psw_congr (pswr hd) n).trans (State.rightPart_psw s r hn)
  ireq n hn := by
    have hbit : (BitVec.twoPow 9 7).getLsbD n = false := by simp [Ne.symm hn]
    rcases State.rightPart_ireq s r with h | h <;> simp [ireq, h, hbit]
  ireqOn h7 := by
    rcases State.rightPart_ireq s r with h | h <;> simp [ireq, h, h7]

/-! ### States beside a right part -/

/-- `u` is the state after the right part, with ipc after the instruction, but for memory and the address registers. -/
def BesideRight (s : State) (r : SRight) (n : Word) (u : State) : Prop :=
  ∃ μ α, u = { (s.rightPart r).advance n with mem := μ, ars := α }

namespace BesideRight

variable {s u : State} {r : SRight} {n : Word}

theorem start (s : State) (r : SRight) (n : Word) : BesideRight s r n ((s.rightPart r).advance n) := ⟨_, _, rfl⟩

theorem setAr (h : BesideRight s r n u) (i : Ix) (v : Word) : BesideRight s r n (u.setAr i v) := by
  obtain ⟨μ, α, rfl⟩ := h
  exact ⟨_, _, rfl⟩

theorem applyUpd (h : BesideRight s r n u) (x : Option (Ix × Word)) : BesideRight s r n (u.applyUpd x) := by
  cases x with
  | none => exact h
  | some x => exact h.setAr x.1 x.2

theorem write32 (h : BesideRight s r n u) (a v : Word) : BesideRight s r n (u.write32 a v) := by
  obtain ⟨μ, α, rfl⟩ := h
  unfold State.write32
  split <;> exact ⟨_, _, rfl⟩

theorem stored (h : BesideRight s r n u) (wide : Bool) (a : Word) (v : Long) :
    BesideRight s r n (u.stored wide a v) := by
  cases wide with
  | true => exact (h.write32 a v.lo).write32 (a + 1) v.hi
  | false => exact h.write32 a v.lo

theorem gr (h : BesideRight s r n u) (j : Ix) : u.gr j = (s.rightPart r).gr j := by
  obtain ⟨μ, α, rfl⟩ := h; rfl

theorem pswr (h : BesideRight s r n u) : u.pswr = (s.rightPart r).pswr := by obtain ⟨μ, α, rfl⟩ := h; rfl

theorem ireq (h : BesideRight s r n u) : u.ireq = (s.rightPart r).ireq := by obtain ⟨μ, α, rfl⟩ := h; rfl

theorem ipc (h : BesideRight s r n u) : u.ipc = s.ipc + n := by obtain ⟨μ, α, rfl⟩ := h; simp

theorem vectorFields (h : BesideRight s r n u) : u.vectorFields = s.vectorFields := by
  obtain ⟨μ, α, rfl⟩ := h; simp

theorem peripheralFields (h : BesideRight s r n u) : u.peripheralFields = s.peripheralFields := by
  obtain ⟨μ, α, rfl⟩ := h; simp

theorem keepsVector (h : BesideRight s r n u) : KeepsVector s u.clearFifos.tickFree := .of_end h.vectorFields

theorem keepsPeripherals (h : BesideRight s r n u) : KeepsPeripherals s u.clearFifos.tickFree :=
  .of_end h.peripheralFields

theorem rightFrame (h : BesideRight s r n u) : RightFrame none r s u.clearFifos.tickFree :=
  .of_end (fun j _ => h.gr j) (fun _ => h.pswr) h.ireq

/-- The frame of an instruction that writes address registers only, beside its right part. -/
theorem onlyRegisters (h : BesideRight s r n u) (hm : u.mem = s.mem) : OnlyRegisters r s u.clearFifos.tickFree where
  right := h.rightFrame
  memory x := congrArg (Memory.byteAt · x) hm
  vector := h.keepsVector
  peripherals := h.keepsPeripherals

end BesideRight

/-! ### Special registers (R403, R440) -/

/-- A write to a special register leaves the vector fields. -/
theorem State.writeSpec_vectorFields (s : State) (q : SpecReg) (v : Word) :
    (s.writeSpec q v).vectorFields = s.vectorFields := by cases q <;> rfl

/-- A write to a special register leaves what the others hold; intr shows fields of its own. -/
theorem State.readSpec_writeSpec_of_ne (s : State) {q x : SpecReg} (v : Word) (h : q ≠ x) (hx : x ≠ .intr) :
    (s.writeSpec q v).readSpec x = s.readSpec x := by
  cases q <;> cases x <;> first | rfl | exact absurd rfl h | exact absurd rfl hx

theorem State.readSpec_congr {s u : State} (h : u.peripheralFields = s.peripheralFields) {x : SpecReg}
    (hintr : x ≠ .intr) (hpswr : x ≠ .pswr) : u.readSpec x = s.readSpec x := by
  simp only [State.peripheralFields, Prod.mk.injEq] at h
  cases x <;> simp_all [State.readSpec]

/-- The end of an instruction changes what intr shows only. -/
theorem State.readSpec_end (s : State) {x : SpecReg} (hx : x ≠ .intr) :
    s.clearFifos.tickFree.readSpec x = s.readSpec x := by
  cases x <;> first | rfl | exact absurd rfl hx

/-- What holds before a write to a special register or pair, and is kept by a write to each register it names, holds
after it. -/
theorem State.writeReg_special_induct {x : Special} {P : State → Prop} {s : State} (v : Long) (h : P s)
    (step : ∀ t q w, Special.names x q → P t → P (t.writeSpec q w)) : P (s.writeReg (.special x) v) := by
  cases x with
  | one q => exact step s q _ rfl h
  | two p => exact step _ _ _ (.inr rfl) (step s _ _ (.inl rfl) h)

/-- A write of an input counter (R108). -/
theorem movingAfter_setIcc {i o : Prop} (hi : i) (ho : ¬ o) (q : Port) (v : Word) :
    movingAfter i o q (q.setIcc v) :=
  ⟨fun h => if_pos (h.resolve_right fun h => ho h.1).2, fun h => if_neg fun hv => h (.inl ⟨hi, hv⟩)⟩

/-- A write of an output counter (R108). -/
theorem movingAfter_setOcc {i o : Prop} (hi : ¬ i) (ho : o) (q : Port) (v : Word) :
    movingAfter i o q (q.setOcc v) :=
  ⟨fun h => if_pos (h.resolve_left fun h => hi h.1).2, fun h => if_neg fun hv => h (.inr ⟨ho, hv⟩)⟩

/-- No counter of the port is written. -/
theorem movingAfter_of_not {i o : Prop} (hi : ¬ i) (ho : ¬ o) {q r : Port} (h : r.moving = q.moving) :
    movingAfter i o q r := by
  simp [movingAfter, hi, ho, h]

/-- The input counter of a port (R104). -/
def inCounter : Unit2 → SpecReg
  | .u0 => .icc0
  | .u1 => .icc1

/-- The output counter of a port (R106). -/
def outCounter : Unit2 → SpecReg
  | .u0 => .occ0
  | .u1 => .occ1

/-- What a write to a special register does to the transfer in progress of a port (R108). -/
theorem State.writeSpec_moving (s : State) (p : Unit2) {q : SpecReg} (v : Word) {i o : Prop}
    (hi : i ↔ q = inCounter p) (ho : o ↔ q = outCounter p) :
    movingAfter i o (s.port p) ((s.writeSpec q v).port p) := by
  by_cases hin : q = inCounter p
  · subst hin
    have hout : ¬ o := by cases p <;> simp [ho, inCounter, outCounter]
    cases p <;> exact movingAfter_setIcc (hi.2 rfl) hout _ v
  by_cases hout : q = outCounter p
  · subst hout
    cases p <;> exact movingAfter_setOcc (mt hi.1 hin) (ho.2 rfl) _ v
  · refine movingAfter_of_not (mt hi.1 hin) (mt ho.1 hout) ?_
    cases p <;> cases q <;> first | rfl | exact absurd rfl hin | exact absurd rfl hout

/-- The same for a special register or pair: the second register of a pair is no counter. -/
theorem State.writeReg_special_moving (s : State) (p : Unit2) (x : Special) (v : Long) :
    movingAfter (Special.names x (inCounter p)) (Special.names x (outCounter p)) (s.port p)
      ((s.writeReg (.special x) v).port p) := by
  cases x with
  | one q => exact s.writeSpec_moving p v.lo eq_comm eq_comm
  | two d =>
    have h := s.writeSpec_moving p (q := (pairRegs d).1) v.hi (i := Special.names (.two d) (inCounter p))
      (o := Special.names (.two d) (outCounter p))
      (by cases d <;> cases p <;> simp [Special.names, pairRegs, inCounter])
      (by cases d <;> cases p <;> simp [Special.names, pairRegs, outCounter])
    cases d <;> cases p <;> exact h

/-- A write to a special register or pair notes DMA activity where it sets a channel up (R73). -/
theorem State.writeReg_special_dmaSeen (s : State) (x : Special) (v : Long) :
    (s.writeReg (.special x) v).dmaSeen = true ↔ s.dmaSeen = true ∨
      ∃ q ∈ [SpecReg.icc0, .icc1, .occ0, .occ1],
        Special.names x q ∧ (s.writeReg (.special x) v).readSpec q ≠ 0 := by
  cases x with
  | one q => cases q <;> simp [State.writeReg, State.writeSpec, State.noteSetUp, State.readSpec, Special.names]
  | two p =>
    cases p <;> simp [State.writeReg, pairRegs, State.writeSpec, State.noteSetUp, State.readSpec, Special.names]

/-- The frame of a write to a special register or pair, beside a right part. -/
theorem BesideRight.keepsSpecial {s u : State} {r : SRight} {n : Word} (h : BesideRight s r n u) (x : Special)
    (v : Long) : KeepsSpecial x s (u.writeReg (.special x) v).clearFifos.tickFree := by
  have hvector := h.vectorFields
  have hperipheral := h.peripheralFields
  simp only [State.peripheralFields, Prod.mk.injEq] at hperipheral
  obtain ⟨_, _, port0, port1, timer0, timer1, gbs, lbs, pending, stuck, dmaSeen, params, inputs⟩ := hperipheral
  exact {
    vector := .of_end <| State.writeReg_special_induct (P := fun t => t.vectorFields = s.vectorFields) v hvector
      fun t q w _ ht => (t.writeSpec_vectorFields q w).trans ht
    regs := fun y hintr hpswr hy => (State.readSpec_end _ hintr).trans <|
      State.writeReg_special_induct (P := fun t => t.readSpec y = s.readSpec y) v
        (State.readSpec_congr h.peripheralFields hintr hpswr)
        fun t q w hq ht => (t.readSpec_writeSpec_of_ne w (by rintro rfl; exact hy hq) hintr).trans ht
    timer0 := fun hx => State.writeReg_special_induct (P := fun t => t.timer0 = s.timer0) v timer0
      fun t q w hq ht => by rw [← ht]; cases q <;> first | rfl | exact absurd hq hx
    timer1 := fun hx => State.writeReg_special_induct (P := fun t => t.timer1 = s.timer1) v timer1
      fun t q w hq ht => by rw [← ht]; cases q <;> first | rfl | exact absurd hq hx
    dir := State.writeReg_special_induct (P := fun t => t.port0.dir = s.port0.dir ∧ t.port1.dir = s.port1.dir) v
      ⟨congrArg _ port0, congrArg _ port1⟩ fun t q w _ ht => by cases q <;> exact ht
    moving := port0 ▸ port1 ▸ ⟨u.writeReg_special_moving .u0 x v, u.writeReg_special_moving .u1 x v⟩
    links := State.writeReg_special_induct (P := fun t => t.port0.inQ = s.port0.inQ ∧ t.port1.inQ = s.port1.inQ ∧
        t.port0.outQ = s.port0.outQ ∧ t.port1.outQ = s.port1.outQ) v
      ⟨congrArg _ port0, congrArg _ port1, congrArg _ port0, congrArg _ port1⟩
      fun t q w _ ht => by cases q <;> exact ht
    dmaSeen := by simpa [State.readSpec, dmaSeen] using u.writeReg_special_dmaSeen x v
    hidden := by simp [gbs, lbs, stuck, pending, params, inputs] }

/-- What a special register holds after it is written (R403, R440). -/
theorem specHolds_writeSpec {s u : State} {q : SpecReg} (v : Word) (hq : q ≠ .intr ∧ q ≠ .pc)
    (hu : ∀ n, 4 ≤ n → u.psw n = s.psw n) : specHolds q v s (u.writeSpec q v).clearFifos.tickFree := by
  obtain ⟨hintr, hpc⟩ := hq
  cases q with
  | pswr =>
    intro n hn
    refine (pswrWritten_bit u.pswr v n hn).trans ?_
    split
    · exact hu n (by omega)
    · rfl
  | t0 => exact ⟨rfl, rfl, rfl⟩
  | t1 => exact ⟨rfl, rfl, rfl⟩
  | intr => exact absurd rfl hintr
  | pc => exact absurd rfl hpc
  | _ => rfl

/-- What the two registers of a special pair hold after it is written (R39, R403). -/
theorem specHolds_writePair (s u : State) {p : SpecPair} (v : Long) (hp : p ≠ .pswrpc) :
    specHolds (pairRegs p).1 v.hi s (u.writeReg (.special (.two p)) v).clearFifos.tickFree ∧
      specHolds (pairRegs p).2 v.lo s (u.writeReg (.special (.two p)) v).clearFifos.tickFree := by
  cases p with
  | t0t1 => exact ⟨⟨rfl, rfl, rfl⟩, rfl, rfl, rfl⟩
  | pswrpc => exact absurd rfl hp
  | _ => exact ⟨rfl, rfl⟩

/-! ### Vector control registers (R126, R134, R403) -/

theorem setLow_halves (a : Long) (w : Word) : (setLow a w).lo = w ∧ (setLow a w).hi = a.hi :=
  ⟨Long.lo_ofHalves .., Long.hi_ofHalves ..⟩

theorem setHigh_halves (a : Long) (w : Word) : (setHigh a w).hi = w ∧ (setHigh a w).lo = a.lo :=
  ⟨Long.hi_ofHalves .., Long.lo_ofHalves ..⟩

/-- The image of a half of sb is in the low word of what is written (R134). -/
theorem Long.getLsbD_lo_odd (v : Long) {j : Nat} (h : j < 16) : v.lo.getLsbD (2 * j + 1) = v.getLsbD (2 * j + 1) := by
  rw [Long.lo, BitVec.getLsbD_extractLsb', Nat.zero_add]
  simp [show 2 * j + 1 < 32 by omega]

/-- What a vector control register or a half of one holds after it is written. -/
theorem vctlHolds_writeReg {s u : State} (c : VCtl) (v : Long) (hu : u.vectorFields = s.vectorFields) :
    vctlHolds c v s (u.writeReg (.vctl c) v).clearFifos.tickFree := by
  simp only [State.vectorFields, Prod.mk.injEq] at hu
  obtain ⟨f1cr, f2cr, nb1, _, sb1, _, vr, _⟩ := hu
  cases c with
  | full c =>
    cases c with
    | sb => exact getLsbD_oddBits v
    | _ => rfl
  | half c =>
    cases c with
    | nb1l => rw [vctlHolds, ← nb1]; exact setLow_halves u.nb1 v.lo
    | nb1h => rw [vctlHolds, ← nb1]; exact setHigh_halves u.nb1 v.lo
    | f1crl => rw [vctlHolds, ← f1cr]; exact setLow_halves u.f1cr v.lo
    | f1crh => rw [vctlHolds, ← f1cr]; exact setHigh_halves u.f1cr v.lo
    | f2crl => rw [vctlHolds, ← f2cr]; exact setLow_halves u.f2cr v.lo
    | f2crh => rw [vctlHolds, ← f2cr]; exact setHigh_halves u.f2cr v.lo
    | vrl => rw [vctlHolds, ← vr]; exact setLow_halves u.vr v.lo
    | vrh => rw [vctlHolds, ← vr]; exact setHigh_halves u.vr v.lo
    | sbl =>
      intro j hj
      rw [← sb1, ← Long.getLsbD_lo_odd v hj]
      exact ⟨(getLsbD_sbLowWritten u.sb1 v.lo j (by omega)).trans (if_pos hj),
        (getLsbD_sbLowWritten u.sb1 v.lo (16 + j) (by omega)).trans (if_neg (by omega))⟩
    | sbh =>
      intro j hj
      rw [← sb1, ← Long.getLsbD_lo_odd v hj]
      refine ⟨(getLsbD_sbHighWritten u.sb1 v.lo (16 + j) (by omega)).trans ?_,
        (getLsbD_sbHighWritten u.sb1 v.lo j (by omega)).trans (if_pos hj)⟩
      rw [if_neg (by omega), Nat.add_sub_cancel_left]

/-- A write to a vector control register or a half of one leaves the others. -/
theorem State.writeReg_vctl_others (s : State) (c : VCtl) (v : Long) :
    (vctlReg c ≠ .f1cr → (s.writeReg (.vctl c) v).f1cr = s.f1cr) ∧
    (vctlReg c ≠ .f2cr → (s.writeReg (.vctl c) v).f2cr = s.f2cr) ∧
    (vctlReg c ≠ .nb1 → (s.writeReg (.vctl c) v).nb1 = s.nb1) ∧
    (vctlReg c ≠ .sb → (s.writeReg (.vctl c) v).sb1 = s.sb1) ∧
    (vctlReg c ≠ .vr → (s.writeReg (.vctl c) v).vr = s.vr) := by
  rcases c with c | c <;> cases c <;> simp [vctlReg, State.writeReg, State.writeHalf, State.writeVReg]

/-- The frame of a write to a vector control register, beside a right part. -/
theorem BesideRight.keepsVctl {s u : State} {r : SRight} {n : Word} (h : BesideRight s r n u) (c : VCtl) (v : Long) :
    KeepsVctl c s (u.writeReg (.vctl c) v).clearFifos.tickFree := by
  have hperipheral : (u.writeReg (.vctl c) v).peripheralFields = u.peripheralFields := by
    rcases c with c | c <;> cases c <;> rfl
  have hvector := h.vectorFields
  simp only [State.vectorFields, Prod.mk.injEq] at hvector
  obtain ⟨f1cr, f2cr, nb1, nb2, sb1, sb2, vr, ws, wa, ram, afifo, wfifo⟩ := hvector
  obtain ⟨hf1cr, hf2cr, hnb1, hsb, hvr⟩ := u.writeReg_vctl_others c v
  exact {
    peripherals := .of_end (hperipheral.trans h.peripheralFields)
    f1cr := fun hc => (hf1cr hc).trans f1cr
    f2cr := fun hc => (hf2cr hc).trans f2cr
    nb1 := fun hc => (hnb1 hc).trans nb1
    sb1 := fun hc => (hsb hc).trans sb1
    vr := fun hc => (hvr hc).trans vr
    active := by simp [nb2, sb2, ws, wa]
    buffers := by simp [ram, afifo, wfifo] }

/-! ### Registers (R403) -/

/-- What a register holds after it is written beside a right part. -/
theorem BesideRight.regHolds {s u : State} {r : SRight} {n : Word} (h : BesideRight s r n u) {dst : Reg}
    (hd : dst.dstDefect = none) (v : Long) : regHolds dst v s (u.writeReg dst v).clearFifos.tickFree := by
  cases dst with
  | ar i => exact u.ar_setAr_self i v.lo
  | gr i => exact u.gr_setGr_self i v.lo
  | pair i => simp [Machine.regHolds, State.writeReg, State.ar_congr (State.clearFifos_ars _)]
  | vctl c => exact vctlHolds_writeReg c v h.vectorFields
  | special x =>
    cases x with
    | one q =>
      refine specHolds_writeSpec v.lo ⟨?_, ?_⟩ fun n hn =>
        (State.psw_congr h.pswr n).trans (State.rightPart_psw s r hn)
      · rintro rfl; cases hd
      · rintro rfl; cases hd
    | two p => exact specHolds_writePair s u v (by rintro rfl; cases hd)

/-- The frame of a write to a register beside a right part, outside the primary file and pswr. -/
theorem BesideRight.keepsBut {s u : State} {r : SRight} {n : Word} (h : BesideRight s r n u) (dst : Reg) (v : Long) :
    keepsBut dst s (u.writeReg dst v).clearFifos.tickFree := by
  cases dst with
  | ar i => exact ⟨.of_end h.vectorFields, .of_end h.peripheralFields⟩
  | gr i => exact ⟨.of_end h.vectorFields, .of_end h.peripheralFields⟩
  | pair i => exact ⟨.of_end h.vectorFields, .of_end h.peripheralFields⟩
  | special x => exact h.keepsSpecial x v
  | vctl c => exact h.keepsVctl c v

/-- The frame of the right part beside a write to a register. -/
theorem BesideRight.rightFrame_writeReg {s u : State} {r : SRight} {n : Word} (h : BesideRight s r n u) {dst : Reg}
    (hd : dst.dstDefect = none) (v : Long) :
    RightFrame (some dst) r s (u.writeReg dst v).clearFifos.tickFree :=
  .of_end (fun j hj => (u.writeReg_gr dst v j hj).trans (h.gr j))
    (fun hp => (u.writeReg_pswr dst v (fun e => hp (congrArg some e)) hd).trans h.pswr)
    ((u.writeReg_ireq dst v).trans h.ireq)

end Sys2Proof.Machine
end

section
/-! PROOFS. The obligations on the empty parts, the loads, the stores and the stack. -/

namespace Sys2Proof.Machine

open Sys2Proof

/-! ### The empty parts (R335 to R337) -/

/-- An empty left part leaves the state after the right part. -/
theorem emptyLeft_row {i : Instr} {s : State} {p : Bool} {l : SLeft} {k : Word} {r : SRight}
    (hc : i.code = ⟨.scalar p l r, k⟩) (hl : l = .nul ∨ l = .nulC) :
    leftRow i s fun t => OnlyRegisters r s t ∧ (∀ j, t.ar j = s.ar j) ∧ t.ipc = s.ipc + l.len ∧
      (∀ j, t.gr j = (s.rightPart r).gr j) ∧ t.pswr = (s.rightPart r).pswr ∧ t.ireq = (s.rightPart r).ireq := by
  have hu := BesideRight.start s r l.len
  have hleft : ∀ n, s.leftPart ((s.rightPart r).advance l.len) l k n = .ok ((s.rightPart r).advance l.len) := by
    intro n; rcases hl with rfl | rfl <;> rfl
  refine leftRow_of_left hc fun _ n => ⟨_, hleft n, ?_⟩
  exact ⟨hu.onlyRegisters (by simp), by simp, hu.ipc, hu.gr, hu.pswr, hu.ireq⟩

/-- Settles O19: `nul` and `nul K` leave what the right part leaves, and beside an omitted right part only the left part
writes. -/
theorem nopRows : Obligations.NopRows := by
  refine ⟨fun s p k r => ?_, fun s p l k => ?_⟩
  · simp only [List.forall_mem_cons]
    exact ⟨emptyLeft_row rfl (.inl rfl), emptyLeft_row rfl (.inr rfl), by simp⟩
  · refine rightRow_of_left rfl fun hd n u hu => ⟨fun j hj => ?_, fun hp => ?_, ?_⟩
    · exact (State.leftPart_gr hu j hj :)
    · exact (State.leftPart_pswr hu hp (scalarDefect_left hd) :)
    · exact (State.leftPart_ireq hu :)

/-! ### Loads (R340 to R350) -/

/-- What a load of `dst` from `ea` leaves beside the right part `r`, with update `x` of an address register, in an
instruction of `len` words. -/
def LoadPost (dst : Reg) (ea : Word) (x : Option (Ix × Word)) (len : Word) (r : SRight) (s t : State) : Prop :=
  regHolds dst (if dst.wide then s.read64 0 ea else (s.read32 0 ea).setWidth 64) s t ∧
  (∀ j, arPart dst ≠ some j → t.ar j = arAfter x s j) ∧
  RightFrame (some dst) r s t ∧ sameMemory s t ∧ keepsBut dst s t ∧ t.ipc = s.ipc + len

/-- The address registers after the update of an addressing mode. -/
theorem State.ar_applyUpd_after {s u : State} (h : u.ars = s.ars) (x : Option (Ix × Word)) (j : Ix) :
    (u.applyUpd x).ar j = arAfter x s j := by
  rw [State.ar_applyUpd, State.ar_congr h]
  cases x <;> rfl

/-- A load, or a pop, beside a right part. -/
theorem load_row {i : Instr} {s : State} {p : Bool} {l : SLeft} {k : Word} {r : SRight} {dst : Reg} {m : Mode}
    (hc : i.code = ⟨.scalar p l r, k⟩) (hl : l = .load dst m ∨ (l = .pop dst ∧ m = .decAr 7))
    (ho : dst.wide = true → (m.ea k dst.step s).odd = false) :
    leftRow i s (LoadPost dst (m.ea k dst.step s) (m.upd k dst.step s) l.len r s) := by
  refine leftRow_of_left hc fun hd n => ?_
  have hd : dst.dstDefect = none := by rcases hl with rfl | ⟨rfl, _⟩ <;> exact hd
  have hleft : ∀ t, s.leftPart t l k n = s.doLoad t dst m k := by
    intro t; rcases hl with rfl | ⟨rfl, rfl⟩ <;> rfl
  have hu := (BesideRight.start s r l.len).applyUpd (m.upd k dst.step s)
  refine ⟨_, (hleft _).trans (State.doLoad_of_even _ ho), hu.regHolds hd _, fun j hj => ?_,
    hu.rightFrame_writeReg hd _, fun x => ?_, hu.keepsBut dst _, ?_⟩
  · rw [State.ar_tickFree, State.ar_clearFifos, State.writeReg_ar _ _ _ _ hj]
    exact State.ar_applyUpd_after (by simp) _ j
  · simp
  · exact (State.writeReg_ipc ..).trans hu.ipc

/-- Settles O20: every row is a load in one addressing mode. -/
theorem loadRows : Obligations.LoadRows := by
  refine ⟨?_, ?_⟩
  · rintro s p dst a k _ r rfl
    simp only [List.forall_mem_cons]
    exact ⟨load_row (m := .const) rfl (.inl rfl), load_row (m := .ar a) rfl (.inl rfl),
      load_row (m := .gr a) rfl (.inl rfl), load_row (m := .arInc a) rfl (.inl rfl),
      load_row (m := .decAr a) rfl (.inl rfl), load_row (m := .arIncGr a) rfl (.inl rfl),
      load_row (m := .arAddGr a) rfl (.inl rfl), load_row (m := .arSetGr a) rfl (.inl rfl),
      load_row (m := .arSetConst a) rfl (.inl rfl), load_row (m := .arAddConst a) rfl (.inl rfl),
      load_row (m := .arSubConst a) rfl (.inl rfl), by simp⟩
  · rintro s p c m k _ r rfl ho
    have hea := Mode.ea_constOf m k (Reg.vctl c).step s
    have hupd := Mode.upd_constOf m k (Reg.vctl c).step s
    have hrow := load_row (i := .ldVctl p c m k r) (dst := .vctl c) (m := m) rfl (.inl rfl)
      (s := s) fun hw => (congrArg Word.odd hea).trans (ho hw)
    refine hrow.mono fun t ⟨hheld, har, hright, hmem, hkeep, hipc⟩ => ?_
    rw [SLeft.constOf, SLeft.long, hea] at hheld
    rw [SLeft.constOf, SLeft.long, hupd] at har
    exact ⟨hheld, fun j => har j nofun, hright, hmem, hkeep, hipc⟩

/-! ### Stores (R355 to R364) -/

/-- What a store of `src` at `ea` leaves beside the right part `r`, with update `x` of an address register, in an
instruction of `len` words. -/
def StorePost (src : Reg) (ea : Word) (x : Option (Ix × Word)) (len : Word) (r : SRight) (s t : State) : Prop :=
  wordStored ea (s.readReg src).lo s t ∧
  (src.wide = true → wordStored (ea + 1) (s.readReg src).hi s t) ∧
  sameMemoryBut ea src.step.toNat s t ∧ (∀ j, t.ar j = arAfter x s j) ∧
  RightFrame none r s t ∧ KeepsVector s t ∧ KeepsPeripherals s t ∧ t.ipc = s.ipc + len

theorem Reg.step_toNat (r : Reg) : r.step.toNat = if r.wide then 2 else 1 := by
  unfold Reg.step; split <;> rfl

theorem State.stored_ars (s : State) (wide : Bool) (a : Word) (v : Long) : (s.stored wide a v).ars = s.ars := by
  cases wide <;> simp [State.stored]

/-- A word stored, said of states with the same memory and MemMap. -/
theorem wordStored_congr {s s' t t' : State} {a v : Word} (hm : s'.mem = s.mem) (hp : s'.params = s.params)
    (ht : t'.mem = t.mem) (h : wordStored a v s' t') : wordStored a v s t := by
  have hb : s'.backed a = s.backed a := by rw [State.backed, hp, State.backed]
  rwa [wordStored, ht, hb, hm] at h

/-- The low word of what is stored. -/
theorem State.wordStored_stored_lo (s : State) (wide : Bool) (a : Word) (v : Long) :
    wordStored a v.lo s (s.stored wide a v) := by
  cases wide with
  | true => exact s.wordStored_write64_lo a v
  | false => rw [wordStored, State.stored, if_neg Bool.false_ne_true, State.word_write32]; simp

/-- The high word of what is stored. -/
theorem State.wordStored_stored_hi (s : State) {wide : Bool} (hw : wide = true) (a : Word) (v : Long) :
    wordStored (a + 1) v.hi s (s.stored wide a v) := by
  rw [State.stored, if_pos hw]
  exact s.wordStored_write64_hi a v

/-- The bytes outside the words stored. -/
theorem State.sameMemoryBut_stored (s : State) {src : Reg} (a : Word) (v : Long) :
    sameMemoryBut a src.step.toNat s (s.stored src.wide a v) := by
  rw [Reg.step_toNat, State.stored]
  cases src.wide with
  | true => exact s.byteAt_write64 a v
  | false => exact fun x hx => s.byteAt_write32 a v.lo x fun j hj => by simpa using hx 0 (by decide) j hj

/-- A store, or a push, beside a right part. -/
theorem store_row {i : Instr} {s : State} {p : Bool} {l : SLeft} {k : Word} {r : SRight} {src : Reg} {m : Mode}
    (hc : i.code = ⟨.scalar p l r, k⟩) (hl : l = .store m src ∨ (l = .push src ∧ m = .arInc 7))
    (ho : src.wide = true → (m.ea k src.step s).odd = false) :
    leftRow i s (StorePost src (m.ea k src.step s) (m.upd k src.step s) l.len r s) := by
  refine leftRow_of_left hc fun _ n => ?_
  have hleft : ∀ t, s.leftPart t l k n = s.doStore t m src k := by
    intro t; rcases hl with rfl | ⟨rfl, rfl⟩ <;> rfl
  let T := (s.rightPart r).advance l.len
  have hu := ((BesideRight.start s r l.len).stored src.wide (m.ea k src.step s) (s.readReg src)).applyUpd
    (m.upd k src.step s)
  refine ⟨_, (hleft _).trans (State.doStore_of_even _ ho), ?lo, fun hw => ?hi, fun x hx => ?rest, fun j => ?ar,
    hu.rightFrame, hu.keepsVector, hu.keepsPeripherals, hu.ipc⟩
  case lo => exact wordStored_congr (by simp [T]) (by simp [T]) (by simp [T]) (State.wordStored_stored_lo T src.wide ..)
  case hi => exact wordStored_congr (by simp [T]) (by simp [T]) (by simp [T]) (State.wordStored_stored_hi T hw ..)
  case rest =>
    have h := State.sameMemoryBut_stored T (src := src) _ (s.readReg src) x hx
    simpa [T] using h
  case ar =>
    rw [State.ar_tickFree, State.ar_clearFifos]
    exact State.ar_applyUpd_after (by simp [State.stored_ars]) _ j

/-- Settles O21: every row is a store in one addressing mode. -/
theorem storeRows : Obligations.StoreRows := by
  rintro s p src a k _ r rfl
  simp only [List.forall_mem_cons]
  exact ⟨store_row (m := .const) rfl (.inl rfl), store_row (m := .ar a) rfl (.inl rfl),
    store_row (m := .gr a) rfl (.inl rfl), store_row (m := .arInc a) rfl (.inl rfl),
    store_row (m := .decAr a) rfl (.inl rfl), store_row (m := .arIncGr a) rfl (.inl rfl),
    store_row (m := .arAddGr a) rfl (.inl rfl), store_row (m := .arSetGr a) rfl (.inl rfl),
    store_row (m := .arSetConst a) rfl (.inl rfl), store_row (m := .arAddConst a) rfl (.inl rfl),
    store_row (m := .arSubConst a) rfl (.inl rfl), by simp⟩

/-! ### The stack (R380 to R388) -/

theorem arAfter_self (i : Ix) (v : Word) (s : State) : arAfter (some (i, v)) s i = v := by simp [arAfter]

theorem arAfter_of_ne {i j : Ix} (v : Word) (s : State) (h : j ≠ i) : arAfter (some (i, v)) s j = s.ar j := by
  simp [arAfter, Ne.symm h]

/-- A push is a store at sp, which then moves up. -/
theorem push_row {i : Instr} {s : State} {p : Bool} {src : Reg} {r : SRight}
    (hc : i.code = ⟨.scalar p (.push src) r, 0⟩) (ho : src.wide = true → s.sp.odd = false) : leftRow i s fun t =>
      wordStored s.sp (s.readReg src).lo s t ∧ (src.wide = true → wordStored (s.sp + 1) (s.readReg src).hi s t) ∧
      sameMemoryBut s.sp (if src.wide then 2 else 1) s t ∧
      t.sp = s.sp + (if src.wide then 2 else 1) ∧ (∀ j, j ≠ 7 → t.ar j = s.ar j) ∧
      RightFrame none r s t ∧ KeepsVector s t ∧ KeepsPeripherals s t ∧ t.ipc = s.ipc + 1 := by
  refine (store_row (m := .arInc 7) hc (.inr ⟨rfl, rfl⟩) ho).mono
    fun t ⟨hlo, hhi, hrest, har, hright, hvector, hperipherals, hipc⟩ => ?_
  rw [Reg.step_toNat] at hrest
  exact ⟨hlo, hhi, hrest, (har 7).trans (arAfter_self ..), fun j hj => (har j).trans (arAfter_of_ne _ s hj),
    hright, hvector, hperipherals, hipc⟩

/-- Settles O22: every row is a store at sp. -/
theorem pushRows : Obligations.PushRows := by
  intro s p n x r
  simp only [List.forall_mem_cons]
  exact ⟨push_row rfl, push_row rfl, push_row rfl, push_row rfl, by simp⟩

/-- A pop is a load at sp, which moves down first. -/
theorem pop_row {i : Instr} {s : State} {p : Bool} {dst : Reg} {st : Word} {r : SRight}
    (hc : i.code = ⟨.scalar p (.pop dst) r, 0⟩) (hst : st = if dst.wide then 2 else 1)
    (ho : dst.wide = true → s.sp.odd = false) : leftRow i s fun t =>
      regHolds dst (if dst.wide then s.read64 0 (s.sp - st) else (s.read32 0 (s.sp - st)).setWidth 64) s t ∧
      (arPart dst ≠ some 7 → t.sp = s.sp - st) ∧
      (∀ j, arPart dst ≠ some j → j ≠ 7 → t.ar j = s.ar j) ∧
      RightFrame (some dst) r s t ∧ sameMemory s t ∧ keepsBut dst s t ∧ t.ipc = s.ipc + 1 := by
  subst hst
  refine (load_row (m := .decAr 7) hc (.inr ⟨rfl, rfl⟩) (Mode.ea_pop_even 0 ho)).mono
    fun t ⟨hheld, har, hright, hmem, hkeep, hipc⟩ => ?_
  exact ⟨hheld, fun h7 => (har 7 h7).trans (arAfter_self ..), fun j hj h7 => (har j hj).trans (arAfter_of_ne _ s h7),
    hright, hmem, hkeep, hipc⟩

/-- Settles O23: every row with a register is a load at sp, and the other moves sp only. -/
theorem popRows : Obligations.PopRows := by
  refine ⟨fun s p n x st r => ?_, fun s p r => ?_⟩
  · simp only [List.forall_mem_cons]
    exact ⟨pop_row rfl, pop_row rfl, pop_row rfl, pop_row rfl, by simp⟩
  · have hu := (BesideRight.start s r 1).setAr 7 (s.sp - s.params.popDropWords)
    refine leftRow_of_left rfl fun _ n => ⟨_, rfl, hu.onlyRegisters (by simp), ?_, fun j hj => ?_, hu.ipc⟩
    · exact State.ar_setAr_self ..
    · exact (State.ar_setAr ..).trans (by simp [Ne.symm hj])

end Sys2Proof.Machine
end

section
/-! PROOFS. The obligations on the copies, the constant loads, the address modifications, `pswr set` and `pswr clear`,
and on what is read from a register. -/

namespace Sys2Proof.Machine

open Sys2Proof

/-! ### Left parts that write one register (R404, R410 to R436) -/

/-- What a write of `v` to `dst` leaves beside the right part `r`, in an instruction of `len` words. -/
def WritePost (dst : Reg) (v : Long) (len : Word) (r : SRight) (s t : State) : Prop :=
  regHolds dst v s t ∧ (∀ j, arPart dst ≠ some j → t.ar j = s.ar j) ∧
  RightFrame (some dst) r s t ∧ sameMemory s t ∧ keepsBut dst s t ∧ t.ipc = s.ipc + len

/-- A left part that only writes a register, beside a right part. -/
theorem write_row {i : Instr} {s : State} {p : Bool} {l : SLeft} {k : Word} {r : SRight} {dst : Reg} {v : Long}
    (hc : i.code = ⟨.scalar p l r, k⟩) (hd : l.defect = none → dst.dstDefect = none)
    (hl : ∀ t n, s.leftPart t l k n = .ok (t.writeReg dst v)) : leftRow i s (WritePost dst v l.len r s) := by
  refine leftRow_of_left hc fun hl' n => ?_
  have hu := BesideRight.start s r l.len
  refine ⟨_, hl _ n, hu.regHolds (hd hl') v, fun j hj => ?_, hu.rightFrame_writeReg (hd hl') v, fun x => ?_,
    hu.keepsBut dst v, ?_⟩
  · rw [State.ar_tickFree, State.ar_clearFifos, State.writeReg_ar _ _ _ _ hj]
    exact State.ar_congr (by simp) j
  · simp
  · exact (State.writeReg_ipc ..).trans hu.ipc

/-- The destination of a copy without a defect can be written. -/
theorem dstDefect_of_copy {dst src : Reg} (h : (SLeft.copy dst src).defect = none) : dst.dstDefect = none := by
  simp only [SLeft.defect, Option.or_eq_none_iff] at h
  exact h.1.2

/-- What a copy writes: a 32-bit source goes to both halves of a 64-bit destination (R404). -/
theorem widen_eq (dst src : Reg) (v : Long) :
    widen dst src v = if dst.wide = true ∧ src.wide = false then Long.ofHalves v.lo v.lo else v := by
  simp [widen]

/-- A copy writes its destination with the widened source. -/
theorem copy_row {i : Instr} {s : State} {p : Bool} {k : Word} {r : SRight} {dst src : Reg}
    (hc : i.code = ⟨.scalar p (.copy dst src) r, k⟩) :
    leftRow i s (WritePost dst (if dst.wide = true ∧ src.wide = false then
      Long.ofHalves (s.readReg src).lo (s.readReg src).lo else s.readReg src) 1 r s) := by
  rw [← widen_eq]
  exact write_row hc dstDefect_of_copy fun _ _ => rfl

/-- Settles O24: every row is a copy between two registers. -/
theorem copyRows : Obligations.CopyRows := by
  intro s p d n h v q x g dst src r
  simp only [List.forall_mem_cons]
  exact ⟨copy_row rfl, copy_row rfl, copy_row rfl, copy_row rfl, copy_row rfl, copy_row rfl, copy_row rfl,
    copy_row rfl, copy_row rfl, copy_row rfl, copy_row rfl, copy_row rfl, copy_row rfl, copy_row rfl, copy_row rfl,
    copy_row rfl, copy_row rfl, by simp⟩

/-- A constant load writes the constant to both halves of its destination. -/
theorem setConst_row {i : Instr} {s : State} {p : Bool} {k : Word} {r : SRight} {dst : Reg}
    (hc : i.code = ⟨.scalar p (.setConst dst) r, k⟩) : leftRow i s (WritePost dst (Long.ofHalves k k) 2 r s) :=
  write_row hc id fun _ _ => rfl

/-- Settles O26: every row is a constant load. -/
theorem constRows : Obligations.ConstRows := by
  intro s p d x h v k r
  simp only [List.forall_mem_cons]
  exact ⟨setConst_row rfl, setConst_row rfl, setConst_row rfl, setConst_row rfl, setConst_row rfl, setConst_row rfl,
    by simp⟩

/-! ### Address modifications (R451 to R460) -/

/-- An address modification writes one address register and leaves the others. -/
theorem arMod_row {i : Instr} {s : State} {p : Bool} {k : Word} {r : SRight} (o : ArOp)
    (hc : i.code = ⟨.scalar p (.arMod o) r, k⟩) : leftRow i s fun t =>
      t.ar o.dst = o.value k s ∧ (∀ j, j ≠ o.dst → t.ar j = s.ar j) ∧ OnlyRegisters r s t ∧
        t.ipc = s.ipc + (SLeft.arMod o).len := by
  have hu := (BesideRight.start s r (SLeft.arMod o).len).setAr o.dst (o.value k s)
  refine leftRow_of_left hc fun _ n => ⟨_, rfl, ?_, fun j hj => ?_, hu.onlyRegisters (by simp), hu.ipc⟩
  · exact State.ar_setAr_self ..
  · exact (State.ar_setAr ..).trans (by simp [Ne.symm hj])

/-- Settles O27: every row is an address modification. -/
theorem addrModRows : Obligations.AddrModRows := by
  intro s p d n k r
  simp only [List.forall_mem_cons]
  exact ⟨arMod_row (.movAr d n) rfl, arMod_row (.movGr d n) rfl, arMod_row (.addGr d n) rfl,
    arMod_row (.addConst d n) rfl, arMod_row (.subConst d n) rfl, arMod_row (.setConst d) rfl,
    arMod_row (.inc d) rfl, arMod_row (.dec d) rfl, arMod_row (.incGr d) rfl, arMod_row (.decGr d) rfl,
    arMod_row (.incConst d) rfl, arMod_row (.decConst d) rfl, by simp⟩

/-! ### `pswr set` and `pswr clear` (R445, R446) -/

/-- An empty left part can stand beside every right part that another left part can stand beside. -/
theorem scalarDefect_nul_of_scalarDefect {l : SLeft} {r : SRight} (h : scalarDefect l r = none) :
    scalarDefect .nul r = none := by
  simp only [scalarDefect, Option.or_eq_none_iff] at h
  simp [scalarDefect, SLeft.defect, pairDefect, SLeft.grWrite, h.1.2]

/-- A left part that applies `f` to pswr after the flags of the right part (D29), and writes nothing else; `u` is the
state after an empty left part beside the same right part. -/
theorem pswrWrite_row {i : Instr} {s : State} {p : Bool} {l : SLeft} {k : Word} {r : SRight} (f : Word → Word)
    (hc : i.code = ⟨.scalar p l r, k⟩) (hl : ∀ t n, s.leftPart t l k n = .ok { t with pswr := f t.pswr }) :
    leftRow i s fun t => ∃ u, exec (.nul p r) s = .next u ∧ t.pswr = f u.pswr ∧ (∀ j, t.gr j = u.gr j) ∧
      t.ireq = u.ireq ∧ (∀ j, t.ar j = s.ar j) ∧ sameMemory s t ∧ KeepsVector s t ∧ KeepsPeripherals s t ∧
      t.ipc = s.ipc + l.len := by
  intro hi ho hp
  have hnul : (Instr.nul p r).wellFormed = true := by
    rw [Instr.wellFormed, hc, Low.wellFormed_iff] at hi
    exact (Low.wellFormed_iff _).mpr (scalarDefect_nul_of_scalarDefect hi)
  obtain ⟨u, hu, -, -, -, hgr, hpswr, hireq⟩ := emptyLeft_row (i := .nul p r) rfl (.inl rfl) hnul nofun hp
  refine leftRow_of_left hc (fun _ n => ?_) hi ho hp
  have ht := BesideRight.start s r l.len
  refine ⟨_, hl _ n, u, hu, congrArg f (ht.pswr.trans hpswr.symm), fun j => (ht.gr j).trans (hgr j).symm,
    ht.ireq.trans hireq.symm, fun j => ?_, fun x => ?_, .of_end ht.vectorFields, .of_end ht.peripheralFields, ht.ipc⟩
  · exact State.ar_congr (by simp) j
  · simp

/-- Settles O28: `pswr set` is a bitwise or, `pswr clear` a bitwise and with the complement. -/
theorem pswrRows : Obligations.PswrRows := by
  intro s p k r
  simp only [List.forall_mem_cons]
  refine ⟨?set, ?clear, by simp⟩
  case set =>
    refine (pswrWrite_row (l := .pswrSet) (· ||| k) rfl fun _ _ => rfl).mono
      fun t ⟨u, hu, hpswr, hrest⟩ => ⟨u, hu, fun n _ => ?_, hrest⟩
    rw [State.psw, hpswr, BitVec.getLsbD_or, State.psw]
  case clear =>
    refine (pswrWrite_row (l := .pswrClear) (· &&& ~~~k) rfl fun _ _ => rfl).mono
      fun t ⟨u, hu, hpswr, hrest⟩ => ⟨u, hu, fun n hn => ?_, hrest⟩
    rw [State.psw, hpswr, BitVec.getLsbD_and, BitVec.getLsbD_not, State.psw]
    simp [hn]

/-! ### Reads of registers and of intr (R402, R80) -/

/-- A 32-bit register is read in the low half (R402). -/
theorem Long.lo_setWidth (w : Word) : Long.lo (w.setWidth 64) = w := by
  apply BitVec.eq_of_getLsbD_eq
  intro i hi
  simp [hi, show i < 64 by omega]

/-- The count field of a buffer that is not empty is its length less one (R75, R76). -/
theorem countField_toNat {q : List Long} (free : BitVec 5) (hne : q ≠ []) (hlen : q.length ≤ 32) :
    (countField q free).toNat + 1 = q.length := by
  have hpos : 0 < q.length := List.length_pos_iff.mpr hne
  rw [countField, if_neg (by simpa using hne), BitVec.toNat_ofNat]
  omega

/-- The empty flags of intr, said as the statements say them (R80). -/
theorem isEmpty_eq_decide (q : List Long) : q.isEmpty = decide (q = []) := by
  rw [Bool.eq_iff_iff, List.isEmpty_iff, decide_eq_true_iff]

/-- The count field of afifo is bits 22:18 of intr (R80). -/
theorem State.intr_afifoCount (s : State) :
    s.intr.extractLsb' 18 5 = countField s.afifo (Config.freeAfifoCount s.freeCtr) := by
  unfold State.intr
  repeat rw [BitVec.extractLsb'_append_eq_of_le (by decide)]
  exact BitVec.extractLsb'_append_eq_right

/-- The count field of ram is bits 17:13 of intr (R80). -/
theorem State.intr_ramCount (s : State) :
    s.intr.extractLsb' 13 5 = countField s.ram (Config.freeRamCount s.freeCtr) := by
  unfold State.intr
  repeat rw [BitVec.extractLsb'_append_eq_of_le (by decide)]
  exact BitVec.extractLsb'_append_eq_right

/-- The requests are the low bits of intr (R78, R80). -/
theorem State.intr_ireq (s : State) : s.intr.extractLsb' 0 9 = s.ireq := BitVec.extractLsb'_append_eq_right

/-- The fields of intr that are one bit (R80). -/
theorem State.intr_bits (s : State) :
    s.intr.getLsbD 31 = s.gbs ∧ s.intr.getLsbD 30 = s.lbs ∧
    s.intr.getLsbD 25 = decide (s.port1.dir = .input) ∧ s.intr.getLsbD 24 = decide (s.port0.dir = .input) ∧
    s.intr.getLsbD 23 = decide (s.afifo ≠ []) ∧
    s.intr.getLsbD 12 = decide (s.afifo = []) ∧ s.intr.getLsbD 11 = decide (s.afifo.length = 32) ∧
    s.intr.getLsbD 10 = decide (s.wfifo = []) ∧ s.intr.getLsbD 9 = decide (s.wfifo.length = 32) := by
  simp only [State.intr, BitVec.getLsbD_append]
  simp [beq_eq_decide, isEmpty_eq_decide]

/-- Settles O25: a register is read as it stands, and intr field by field. -/
theorem registerReads : Obligations.RegisterReads := by
  refine ⟨fun s n => ⟨Long.lo_setWidth _, Long.lo_setWidth _, rfl, rfl, rfl, rfl, rfl, rfl, ?_⟩, fun s => ?_⟩
  · have hread : ∀ q, (s.readReg (.special (.one q))).lo = s.readSpec q := fun q => Long.lo_setWidth _
    simp [hread, State.readSpec]
  · obtain ⟨hgbs, hlbs, hdir1, hdir0, hdata, hempty, hfull, hwempty, hwfull⟩ := s.intr_bits
    refine ⟨hgbs, hlbs, fun hd => ?dmar, hdir1, hdir0, hdata, fun hne hlen => ?afifo, fun hne hlen => ?ram, hempty,
      hfull, hwempty, hwfull, s.intr_ireq⟩
    case dmar => rw [s.intr_dmar, State.dmar, hd]; rfl
    case afifo => rw [s.intr_afifoCount]; exact countField_toNat _ hne hlen
    case ram => rw [s.intr_ramCount]; exact countField_toNat _ hne hlen

end Sys2Proof.Machine
end

section
/-! PROOFS. Control transfers: what a transfer does in each of its cases, said once, and the obligations on the rows of
branches, calls and returns, on delayed transfers, and on transfers among delayed instructions. -/

namespace Sys2Proof.Machine

open Sys2Proof

/-! ### Conditions (R520) -/

/-- Settles O17: with the flags named, every row is a Boolean identity; the signed comparisons read N xor V. -/
theorem conditionTable : Obligations.ConditionTable := by
  intro s n z v c hn hz hv hc
  have signedLess : (n ^^ v) = true ↔ n ≠ v := bne_iff_ne
  have signedNotLess : (n ^^ v) = false ↔ n = v := bne_eq_false_iff_eq
  simp only [Cond.holds, hn, hz, hv, hc, Bool.not_eq_true', Bool.and_eq_true, Bool.or_eq_true, Bool.or_eq_false_iff,
    signedLess, signedNotLess]
  simp

/-! ### The cases of a transfer (R472, R475, R477) -/

section
variable {s : State} {c : Cond} (t : State) (x : Xfer) (k : Word) (n : Nat)

/-- A transfer that is not taken does nothing, unless it is delayed and leaves a record. -/
theorem State.doXfer_of_notTaken {d : Bool} (hd : d = false ∨ s.pending.isSome = true) (hc : c.holds s = false) :
    s.doXfer t c d x k n = .ok t := by
  unfold State.doXfer
  rw [hc]
  split
  · rfl
  · next hp =>
    obtain rfl := hd.resolve_right hp
    rfl

theorem State.doXfer_of_taken (hp : s.pending = none) (hc : c.holds s = true) :
    s.doXfer t c false x k n = t.action x.kind (x.target k t.ipc s) t.ipc := by
  rw [State.doXfer, hp, hc]
  rfl

theorem State.doXfer_of_delayed (hp : s.pending = none) :
    s.doXfer t c true x k n = .ok (t.withPending (some (s.delayRecord c x k t.ipc n))) := by
  rw [State.doXfer, hp]
  rfl

/-- A transfer that is taken among delayed instructions is refused. -/
theorem State.doXfer_inWindow {d : Bool} (hp : s.pending.isSome = true) (hc : c.holds s = true) :
    s.doXfer t c d x k n = .error .transferInDelayWindow := by
  rw [State.doXfer, if_pos hp, if_pos hc]

end

/-! ### Moves beside a right part -/

/-- A state beside a right part with another next address is one too: it has advanced by the distance. -/
theorem BesideRight.setIpc {s u : State} {r : SRight} {n : Word} (h : BesideRight s r n u) (v : Word) :
    BesideRight s r (v - s.ipc) { u with ipc := v } := by
  obtain ⟨μ, α, rfl⟩ := h
  have hv : (s.rightPart r).ipc + (v - s.ipc) = v := by
    rw [State.rightPart_ipc, BitVec.add_comm, BitVec.sub_add_cancel]
  exact ⟨μ, α, by rw [State.advance, State.advance, hv]⟩

/-- What a transfer leaves that writes nothing but ipc, beside the right part `r`, with `v` the next address. -/
def MovedTo (v : Word) (r : SRight) (s t : State) : Prop :=
  t.ipc = v ∧ (∀ j, t.ar j = s.ar j) ∧ OnlyRegisters r s t ∧ t.pending = none

theorem BesideRight.movedTo {s u : State} {r : SRight} {n : Word} (h : BesideRight s r n u) (hm : u.mem = s.mem)
    (ha : u.ars = s.ars) (hp : s.pending = none) : MovedTo u.ipc r s u.clearFifos.tickFree :=
  ⟨rfl, State.ar_congr (t := u.clearFifos.tickFree) ha, h.onlyRegisters hm, h.keepsPeripherals.pending.trans hp⟩

/-- The state before the left part has moved to the next instruction. -/
theorem movedTo_start {s : State} (r : SRight) (n : Word) (hp : s.pending = none) :
    MovedTo (s.ipc + n) r s ((s.rightPart r).advance n).clearFifos.tickFree := by
  have h := BesideRight.start s r n
  exact h.ipc ▸ h.movedTo (by simp) (by simp) hp

/-- A transfer, not delayed, that is not taken goes on after the instruction. -/
theorem notTaken_row {i : Instr} {s : State} {p : Bool} {c : Cond} {k len : Word} {r : SRight} (x : Xfer)
    (hi : i.code = ⟨.scalar p (.xfer c false x) r, k⟩) (hc : c.holds s = false)
    (hlen : (SLeft.xfer c false x).len = len) : leftRow i s (MovedTo (s.ipc + len) r s) := by
  subst hlen
  intro hwf ho hp
  exact leftRow_of_left hi
    (fun _ n => ⟨_, State.doXfer_of_notTaken _ x k n (.inl rfl) hc, movedTo_start r _ hp⟩) hwf ho hp

/-! ### goto and skip (R480 to R486) -/

/-- A jump, not delayed: `target` is where it goes when taken, `len` its length. -/
theorem goto_row {i : Instr} {s : State} {p : Bool} {c : Cond} {k target len : Word} {r : SRight} (x : Xfer)
    (hi : i.code = ⟨.scalar p (.xfer c false x) r, k⟩) (hx : x.kind = .jump)
    (hlen : (SLeft.xfer c false x).len = len) (htarget : x.target k (s.ipc + len) s = target) :
    leftRow i s (MovedTo (if c.holds s then target else s.ipc + len) r s) := by
  subst hlen htarget
  cases hc : c.holds s with
  | false => exact notTaken_row x hi hc rfl
  | true =>
    intro hwf ho hp
    refine leftRow_of_left hi (fun _ n => ?_) hwf ho hp
    have hu := BesideRight.start s r (SLeft.xfer c false x).len
    refine ⟨_, (State.doXfer_of_taken _ x k n hp hc).trans (by rw [hx]; rfl), ?_⟩
    rw [hu.ipc]
    exact (hu.setIpc _).movedTo (by simp) (by simp) hp

/-- Settles O29: every row is a jump. -/
theorem gotoRows : Obligations.GotoRows := by
  intro s p c n k r
  simp only [List.forall_mem_cons]
  exact ⟨goto_row (.goto .const) rfl rfl rfl rfl, goto_row (.goto (.ar n)) rfl rfl rfl rfl,
    goto_row (.goto (.gr n)) rfl rfl rfl rfl, goto_row (.goto (.arGr n)) rfl rfl rfl rfl,
    goto_row (.goto (.arAdd n)) rfl rfl rfl rfl, goto_row (.goto (.arSub n)) rfl rfl rfl rfl,
    goto_row (.skip .const) rfl rfl rfl rfl, goto_row (.skip (.gr n)) rfl rfl rfl rfl, by simp⟩

/-! ### Calls (R490 to R497) -/

/-- What a call leaves that pushes the frame {pswr, ret} and jumps to `target`, beside the right part `r`. -/
def Called (target ret : Word) (r : SRight) (s t : State) : Prop :=
  t.ipc = target ∧ t.sp = s.sp + 2 ∧ wordStored s.sp ret s t ∧ wordStored (s.sp + 1) t.pswr s t ∧
  sameMemoryBut s.sp 2 s t ∧ (∀ j, j ≠ 7 → t.ar j = s.ar j) ∧
  RightFrame none r s t ∧ KeepsVector s t ∧ KeepsPeripherals s t ∧ t.pending = none

/-- No action but that of `ireturn` writes more than memory, sp and ipc. -/
theorem BesideRight.action {s u v : State} {r : SRight} {n target ret : Word} {kind : XferKind}
    (h : BesideRight s r n u) (ha : u.action kind target ret = .ok v) (hk : kind ≠ .iret) :
    ∃ m, BesideRight s r m v := by
  rcases State.action_ok ha with ⟨_, rfl⟩ | ⟨_, _, rfl⟩ | ⟨_, _, rfl⟩ | ⟨rfl, _, rfl⟩
  · exact ⟨_, h.setIpc _⟩
  · exact ⟨_, ((h.stored true _ _).setAr 7 _).setIpc _⟩
  · exact ⟨_, (h.setAr 7 _).setIpc _⟩
  · exact absurd rfl hk

/-- The state before the left part has sp as before the instruction. -/
theorem State.sp_start (s : State) (r : SRight) (n : Word) : ((s.rightPart r).advance n).sp = s.sp :=
  State.ar_congr (by simp) 7

/-- A call, not delayed, that is taken, with even sp. -/
theorem call_row {i : Instr} {s : State} {p : Bool} {c : Cond} {k target len : Word} {r : SRight} (x : Xfer)
    (hi : i.code = ⟨.scalar p (.xfer c false x) r, k⟩) (hx : x.kind = .call)
    (hlen : (SLeft.xfer c false x).len = len) (htarget : x.target k (s.ipc + len) s = target)
    (hc : c.holds s = true) (ho : s.sp.odd = false) : leftRow i s (Called target (s.ipc + len) r s) := by
  intro hwf hlong hp
  refine leftRow_of_left hi (fun _ n => ?_) hwf hlong hp
  rw [hlen]
  have hstart := BesideRight.start s r len
  have hsp := State.sp_start s r len
  have hxfer := State.doXfer_of_taken ((s.rightPart r).advance len) x k n hp hc
  rw [hx, hstart.ipc, htarget] at hxfer
  obtain ⟨v, ha, hipc, hsp', hpswr, hret, hold, hmem⟩ := State.action_call target (s.ipc + len) (hsp ▸ ho)
  obtain ⟨m, hv⟩ := hstart.action ha nofun
  obtain ⟨har, -⟩ := State.action_form ha
  rw [← hpswr] at hold
  rw [hsp] at hsp' hret hold hmem
  refine ⟨v, hxfer.trans ha, hipc, hsp', ?_, ?_, fun y hy => ?_, fun j hj => ?_, hv.rightFrame, hv.keepsVector,
    hv.keepsPeripherals, hv.keepsPeripherals.pending.trans hp⟩
  · exact wordStored_congr (by simp) (by simp) (by simp) hret
  · exact wordStored_congr (by simp) (by simp) (by simp) hold
  · simpa using hmem y hy
  · simpa [State.ar_congr (State.rightPart_ars s r)] using har j hj

/-- A call, not delayed, taken or not. -/
theorem call_rows {i : Instr} {s : State} {p : Bool} {c : Cond} {k target len : Word} {r : SRight} (x : Xfer)
    (hi : i.code = ⟨.scalar p (.xfer c false x) r, k⟩) (hx : x.kind = .call)
    (hlen : (SLeft.xfer c false x).len = len) (htarget : x.target k (s.ipc + len) s = target) :
    (c.holds s = true → s.sp.odd = false → leftRow i s (Called target (s.ipc + len) r s)) ∧
    (c.holds s = false → leftRow i s (MovedTo (s.ipc + len) r s)) :=
  ⟨call_row x hi hx hlen htarget, fun hc => notTaken_row x hi hc hlen⟩

/-- Settles O30: every row is a call. -/
theorem callRows : Obligations.CallRows := by
  intro s p c n k r
  simp only [List.forall_mem_cons]
  exact ⟨call_rows (.call .const) rfl rfl rfl rfl, call_rows (.call (.ar n)) rfl rfl rfl rfl,
    call_rows (.call (.gr n)) rfl rfl rfl rfl, call_rows (.call (.arGr n)) rfl rfl rfl rfl,
    call_rows (.call (.arAdd n)) rfl rfl rfl rfl, call_rows (.call (.arSub n)) rfl rfl rfl rfl,
    call_rows (.callrel .const) rfl rfl rfl rfl, call_rows (.callrel (.gr n)) rfl rfl rfl rfl, by simp⟩

/-! ### Returns (R510, R512) -/

/-- The frame a return reads is in memory before the instruction; its right part writes no memory. -/
theorem State.read64_start (s : State) (r : SRight) (n : Word) (k : Nat) (a : Word) :
    ((s.rightPart r).advance n).read64 k a = s.read64 k a := by
  have h32 : ∀ b, ((s.rightPart r).advance n).read32 k b = s.read32 k b := fun b =>
    State.read32_congr k (by simp) (by simp) (by simp)
  rw [State.read64, State.read64, h32, h32]

/-- The state a return leaves beside its right part, but for pswr: the frame popped, ipc restored (R510). -/
def State.returned (s : State) (r : SRight) : State :=
  { ((s.rightPart r).advance 1).setAr 7 (s.sp - 2) with ipc := (s.read64 65 (s.sp - 2)).lo }

theorem BesideRight.returned (s : State) (r : SRight) : ∃ n, BesideRight s r n (s.returned r) :=
  ⟨_, ((BesideRight.start s r 1).setAr 7 _).setIpc _⟩

/-- The state a return from an interrupt leaves: pswr is restored too (R512). -/
def State.interruptReturned (s : State) (r : SRight) : State :=
  { s.returned r with pswr := pswrWritten (s.rightPart r).pswr (s.read64 65 (s.sp - 2)).hi }

theorem State.returned_mem (s : State) (r : SRight) : (s.returned r).mem = s.mem := s.rightPart_mem r

theorem State.returned_ar (s : State) (r : SRight) {j : Ix} (hj : j ≠ 7) : (s.returned r).ar j = s.ar j := by
  refine (State.ar_setAr ..).trans ((if_neg (Ne.symm hj)).trans ?_)
  exact State.ar_congr (by simp) j

/-- `return` that is taken, with even sp. -/
theorem ret_row (s : State) (p : Bool) (c : Cond) (r : SRight) (hc : c.holds s = true) (ho : s.sp.odd = false) :
    leftRow (.ret p c false r) s fun t =>
      t.ipc = (s.read64 65 (s.sp - 2)).lo ∧ t.sp = s.sp - 2 ∧ (∀ j, j ≠ 7 → t.ar j = s.ar j) ∧
      OnlyRegisters r s t ∧ t.pending = none := by
  intro hwf hlong hp
  refine leftRow_of_left rfl (fun _ n => ?_) hwf hlong hp
  have hsp := State.sp_start s r 1
  have ha := State.returnFromCall_of_even ((s.rightPart r).advance 1) (hsp ▸ ho)
  rw [hsp, State.read64_start] at ha
  obtain ⟨m, hu⟩ := BesideRight.returned s r
  exact ⟨s.returned r, (State.doXfer_of_taken _ .ret 0 n hp hc).trans ha, rfl, State.ar_setAr_self ..,
    fun _ => s.returned_ar r, hu.onlyRegisters (s.returned_mem r), hu.keepsPeripherals.pending.trans hp⟩

/-- `ireturn` that is taken, with even sp: as `return`, and pswr is restored. -/
theorem iret_row (s : State) (p : Bool) (c : Cond) (r : SRight) (hc : c.holds s = true) (ho : s.sp.odd = false) :
    leftRow (.iret p c false r) s fun t =>
      t.ipc = (s.read64 65 (s.sp - 2)).lo ∧ t.sp = s.sp - 2 ∧ (∀ j, j ≠ 7 → t.ar j = s.ar j) ∧
      (∀ n < 32, t.psw n = if 20 ≤ n ∧ n ≤ 25 then s.psw n else (s.read64 65 (s.sp - 2)).hi.getLsbD n) ∧
      RightFrame (some (.special (.one .pswr))) r s t ∧ sameMemory s t ∧ KeepsVector s t ∧
      KeepsPeripherals s t ∧ t.pending = none := by
  intro hwf hlong hp
  refine leftRow_of_left rfl (fun _ n => ?_) hwf hlong hp
  have hsp := State.sp_start s r 1
  have ha := State.returnFromInterrupt_of_even ((s.rightPart r).advance 1) (hsp ▸ ho)
  rw [hsp, State.read64_start] at ha
  obtain ⟨m, hu⟩ := BesideRight.returned s r
  have hkeeps : KeepsPeripherals s (s.interruptReturned r).clearFifos.tickFree := .of_end hu.peripheralFields
  refine ⟨s.interruptReturned r, (State.doXfer_of_taken _ .iret 0 n hp hc).trans ha, rfl, State.ar_setAr_self ..,
    fun _ => s.returned_ar r, fun b hb => ?_, .of_end (fun j _ => hu.gr j) (fun h => absurd rfl h) hu.ireq,
    fun y => congrArg (Memory.byteAt · y) (s.returned_mem r), .of_end hu.vectorFields, hkeeps,
    hkeeps.pending.trans hp⟩
  refine (pswrWritten_bit (s.rightPart r).pswr _ b hb).trans ?_
  split
  · exact State.rightPart_psw s r (by omega)
  · rfl

/-- Settles O31: a return that is taken pops the frame, and one that is not goes on after the instruction. -/
theorem returnRows : Obligations.ReturnRows := by
  intro s p c r
  refine ⟨fun hc ho => ⟨ret_row s p c r hc ho, iret_row s p c r hc ho⟩, fun hc => ?_⟩
  simp only [List.forall_mem_cons]
  exact ⟨notTaken_row .ret rfl hc rfl, notTaken_row .iret rfl hc rfl, by simp⟩

/-! ### Instructions whose left part answers (R330) -/

/-- A well-formed scalar instruction passes the checks of its parts. -/
theorem scalarDefect_of_wellFormed {i : Instr} {p : Bool} {l : SLeft} {r : SRight} {k : Word}
    (hi : i.code = ⟨.scalar p l r, k⟩) (hwf : i.wellFormed = true) : scalarDefect l r = none := by
  rw [Instr.wellFormed, hi] at hwf
  exact (Low.wellFormed_iff _).mp hwf

/-- An instruction of the tables whose left part answers ends after it. -/
theorem exec_of_left {i : Instr} {s u : State} {p : Bool} {l : SLeft} {r : SRight} {k : Word}
    (hi : i.code = ⟨.scalar p l r, k⟩) (hwf : i.wellFormed = true) (ho : i.code.low.long = true → s.ipc.odd = false)
    (hu : s.leftPart ((s.rightPart r).advance l.len) l k (s.slots i.code) = .ok u) :
    exec i s = u.finish s.pending := by
  rw [hi] at ho hu
  have hodd : (l.long && s.ipc.odd) = false := by
    cases hl : l.long with
    | true => exact ho hl
    | false => rfl
  rw [exec_eq_run, hi]
  exact runScalar_of_left (scalarDefect_of_wellFormed hi hwf) hodd hu

/-! ### Delayed transfers (R475, R478) -/

/-- What the delayed transfer `i` leaves beside the right part `r`: its record, and execution going on after its `len`
words. -/
def RecordLeft (taken : Bool) (kind : XferKind) (target len : Word) (i : Instr) (r : SRight) (s t : State) : Prop :=
  (∃ m, 1 ≤ m ∧ m ≤ 3 ∧ m = slotsAt s.params.delaySlots ⟨i.code, s.ipc, s.lensFrom 3 (s.ipc + len)⟩ ∧
    (s.params.delaySlots = [] → m = 1) ∧ t.pending = some ⟨taken, kind, target, m⟩) ∧
  t.ipc = s.ipc + len ∧ (∀ j, t.ar j = s.ar j) ∧ OnlyRegisters r { s with pending := t.pending } t

theorem delayed_row {i : Instr} {s : State} {p : Bool} {c : Cond} {k target len : Word} {kind : XferKind} {r : SRight}
    (x : Xfer) (hi : i.code = ⟨.scalar p (.xfer c true x) r, k⟩) (hx : x.kind = kind)
    (hlen : (SLeft.xfer c true x).len = len) (htarget : x.target k (s.ipc + len) s = target) :
    leftRow i s (RecordLeft (c.holds s) kind target len i r s) := by
  intro hwf ho hp
  have hstart := BesideRight.start s r len
  have hleft := State.doXfer_of_delayed (c := c) ((s.rightPart r).advance len) x k (s.slots i.code) hp
  rw [hstart.ipc, State.delayRecord, hx, htarget, ← hlen] at hleft
  have hexec := exec_of_left hi hwf ho hleft
  rw [hp, State.finish_none, hlen] at hexec
  have hslots : s.slots i.code = slotsAt s.params.delaySlots ⟨i.code, s.ipc, s.lensFrom 3 (s.ipc + len)⟩ := by
    rw [State.slots, ← hlen, hi]; rfl
  obtain ⟨h1, h3⟩ := slotsAt_fits s.params.delaySlots ⟨i.code, s.ipc, s.lensFrom 3 (s.ipc + len)⟩
  rw [← hslots] at h1 h3
  have hu := BesideRight.start (s.withPending (some ⟨c.holds s, kind, target, s.slots i.code⟩)) r len
  rw [State.rightPart_withPending] at hu
  refine ⟨_, hexec, ⟨_, h1, h3, hslots, fun h => by rw [hslots, h]; rfl, rfl⟩, hu.ipc, ?_,
    hu.onlyRegisters (by simp [State.withPending])⟩
  exact State.ar_congr (by simp [State.withPending])

/-- A word that decodes has the length of its instruction. -/
theorem lengthOfWord_of_decode {w0 w1 : Word} {i : Instr} (h : decode w0 w1 = .ok i) :
    lengthOfWord w0 = some (if i.code.low.long then 2 else 1) := by
  obtain ⟨l, hw, hl, hi⟩ := decode_code h
  rw [lengthOfWord, hw, hi, Option.filter_some, if_pos hl]
  rfl

/-- The lengths of the instructions from an address on, where the first decodes. -/
theorem State.lensFrom_succ {s : State} {a w : Word} {i : Instr} (m : Nat) (h : decode (s.read32 66 a) w = .ok i) :
    s.lensFrom (m + 1) a =
      (if i.code.low.long then 2 :: s.lensFrom m (a + 2) else 1 :: s.lensFrom m (a + 1)) := by
  rw [State.lensFrom, lengthOfWord_of_decode h]
  cases i.code.low.long <;> rfl

/-- The end of an instruction where no transfer is pending makes no record. -/
theorem State.finish_none_pending {u t : State} (h : u.finish none = .next t) : t.pending = u.pending := by
  rw [State.finish_none] at h
  injection h with h
  subst h
  rfl

/-- No vector instruction makes a record. -/
theorem exec_vector_pending {i : Instr} {s t : State} (h : exec i s = .next t) (hv : isVector i.code.low = true)
    (hp : s.pending = none) : t.pending = none := by
  rw [exec_eq_run, run] at h
  split at h
  case h_1 hl => simp [hl, isVector] at hv
  case h_2 p n l r hl =>
    obtain ⟨_, ⟨_, rfl⟩ | ⟨_, ⟨_, hf⟩ | ⟨_, _, _, hf⟩⟩⟩ := runVector_next h
    · exact hp
    · rw [hp] at hf
      exact (State.finish_none_pending hf).trans hp
    · obtain ⟨_, _, _, _, _, e⟩ := State.vectorEffect_eq s (n.val + 1) l r
      rw [hp] at hf
      exact (State.finish_none_pending hf).trans (by simp [e, hp])
  case h_3 hl =>
    rcases runBare_next h with ⟨_, _, rfl⟩ | ⟨u, hu, hf⟩
    · exact hp
    · rw [hp] at hf
      refine (State.finish_none_pending hf).trans ?_
      rcases hu with rfl | rfl | ⟨_, rfl | rfl⟩ <;> simp [hp]

/-- An instruction that is no delayed transfer makes no record. -/
theorem exec_pending {i : Instr} {s t : State} (h : exec i s = .next t) (hp : s.pending = none)
    (hx : ∀ p c x r k, i.code ≠ ⟨.scalar p (.xfer c true x) r, k⟩) : t.pending = none := by
  cases hl : i.code.low with
  | scalar p l r =>
    obtain ⟨_, u, hu, hf⟩ := exec_scalar_next h hl
    have hnot : ∀ c x, l ≠ .xfer c true x := by
      rintro c x rfl
      exact hx p c x r i.code.k (by rw [← hl])
    rw [hp] at hf
    calc t.pending = u.pending := State.finish_none_pending hf
      _ = ((s.rightPart r).advance l.len).pending := State.leftPart_pending hu hnot
      _ = none := by rw [State.advance_pending, State.rightPart_pending, hp]
  | vector => exact exec_vector_pending h (by rw [hl]; rfl) hp
  | bare => exact exec_vector_pending h (by rw [hl]; rfl) hp

/-- Settles O32: every row is a delayed transfer. -/
theorem delayedRows : Obligations.DelayedRows := by
  refine ⟨fun s p c n k r => ?_, fun s m a w i => State.lensFrom_succ m, fun i s t => exec_pending⟩
  simp only [List.forall_mem_cons]
  exact ⟨delayed_row (.goto .const) rfl rfl rfl rfl, delayed_row (.goto (.ar n)) rfl rfl rfl rfl,
    delayed_row (.goto (.gr n)) rfl rfl rfl rfl, delayed_row (.goto (.arGr n)) rfl rfl rfl rfl,
    delayed_row (.goto (.arAdd n)) rfl rfl rfl rfl, delayed_row (.goto (.arSub n)) rfl rfl rfl rfl,
    delayed_row (.skip .const) rfl rfl rfl rfl, delayed_row (.skip (.gr n)) rfl rfl rfl rfl,
    delayed_row (.call .const) rfl rfl rfl rfl, delayed_row (.call (.ar n)) rfl rfl rfl rfl,
    delayed_row (.call (.gr n)) rfl rfl rfl rfl, delayed_row (.call (.arGr n)) rfl rfl rfl rfl,
    delayed_row (.call (.arAdd n)) rfl rfl rfl rfl, delayed_row (.call (.arSub n)) rfl rfl rfl rfl,
    delayed_row (.callrel .const) rfl rfl rfl rfl, delayed_row (.callrel (.gr n)) rfl rfl rfl rfl,
    delayed_row .ret rfl rfl rfl rfl, delayed_row .iret rfl rfl rfl rfl, by simp⟩

/-! ### Transfers among delayed instructions (R477) -/

/-- An instruction with an empty left part of either length ends after its right part. -/
theorem exec_emptyLeft {s : State} {r : SRight} (p long : Bool) (k : Word) (hd : scalarDefect .nul r = none)
    (ho : long = true → s.ipc.odd = false) : exec (if long then .nulK p k r else .nul p r) s =
      ((s.rightPart r).advance (if long then 2 else 1)).finish s.pending := by
  have hwf : (Instr.nul p r).wellFormed = true := (Low.wellFormed_iff _).mpr hd
  cases long with
  | true => exact exec_of_left (i := .nulK p k r) rfl hwf (fun _ => ho rfl) rfl
  | false => exact exec_of_left (i := .nul p r) rfl hwf nofun rfl

/-- Settles O34: a transfer that is not taken leaves what its right part leaves, as an empty left part does. -/
theorem transferInWindow : Obligations.TransferInWindow := by
  intro s i p d c x r k hi hp hwf ho
  refine ⟨fun hc => ?_, fun hc => ?_⟩
  · exact exec_leftRefused hi hwf ho fun t n _ => State.doXfer_inWindow t x k n hp hc
  · have hnul := scalarDefect_nul_of_scalarDefect (scalarDefect_of_wellFormed hi hwf)
    have hleft := State.doXfer_of_notTaken ((s.rightPart r).advance (SLeft.xfer c d x).len) x k (s.slots i.code)
      (d := d) (.inr hp) hc
    rw [exec_emptyLeft p i.code.low.long k hnul ho, exec_of_left hi hwf ho hleft, hi]
    rfl

end Sys2Proof.Machine
end

section
/-! PROOFS. The scalar right part beside any left part: what an operation leaves of registers, flags and requests, and
the obligations on the rows of the adding, the subtracting and the logical class, the shifts and the multiply steps. -/

namespace Sys2Proof.Machine

open Sys2Proof

/-! ### What stays of the right part (R330, R548) -/

/-- The registers, pswr and requests after an instruction are those its right part `r` made, but for what its left part
`l` writes; the two parts write no common register. -/
structure RightStays (l : SLeft) (r : SRight) (s t : State) : Prop where
  apart : ∀ j ∈ r.grWrites, l.grWrite ≠ some j
  gr : ∀ j, l.grWrite ≠ some j → t.gr j = (s.rightPart r).gr j
  pswr : keepsPswr l = true → t.pswr = (s.rightPart r).pswr
  ireq : t.ireq = (s.rightPart r).ireq
  pending : (∀ c x, l ≠ .xfer c true x) → t.pending = none

/-- Two parts of one instruction write no common general-purpose register (R548). -/
theorem scalarDefect_apart {l : SLeft} {r : SRight} (h : scalarDefect l r = none) :
    ∀ j ∈ r.grWrites, l.grWrite ≠ some j := by
  intro j hj hl
  simp only [scalarDefect, Option.or_eq_none_iff, pairDefect, hl, if_pos hj] at h
  exact absurd h.2 nofun

/-- A statement about a right part follows from what stays of it. -/
theorem rightRow_of_stays {i : Instr} {s : State} {p : Bool} {l : SLeft} {k : Word} {r : SRight} {post : State → Prop}
    (hc : i.code = ⟨.scalar p l r, l.constOf k⟩) (h : ∀ t, RightStays l r s t → post t) : rightRow i l k s post := by
  intro hi hl hp
  refine rightRow_of_left (post := post) hc (fun hd n u hu => h _ ⟨scalarDefect_apart hd, fun j hj => ?_, fun hk => ?_,
    ?_, fun hx => ?_⟩) hi hl hp
  · exact (State.leftPart_gr hu j hj :)
  · exact (State.leftPart_pswr hu hk (scalarDefect_left hd) :)
  · exact (State.leftPart_ireq hu :)
  · calc u.clearFifos.tickFree.pending = u.pending := rfl
      _ = ((s.rightPart r).advance l.len).pending := State.leftPart_pending hu hx
      _ = none := by rw [State.advance_pending, State.rightPart_pending, hp]

theorem rightRow.mono {i : Instr} {l : SLeft} {k : Word} {s : State} {P Q : State → Prop} (h : rightRow i l k s P)
    (hPQ : ∀ t, P t → Q t) : rightRow i l k s Q := by
  intro hi hl hp
  obtain ⟨t, ht, hP⟩ := h hi hl hp
  exact ⟨t, ht, hPQ t hP⟩

/-! ### Flags (R542) -/

/-- A flag as a bit of pswr. -/
theorem State.psw_eq_flags (s : State) {n : Nat} (h : n < 4) : s.psw n = s.flags.getLsbD n := by
  simp [State.psw, State.flags, h]

theorem State.flags_congr {s t : State} (h : t.pswr = s.pswr) : t.flags = s.flags :=
  congrArg (BitVec.extractLsb' 0 4) h

theorem getLsbD_flagBits (n z v c : Bool) : (flagBits n z v c).getLsbD 3 = n ∧ (flagBits n z v c).getLsbD 2 = z ∧
    (flagBits n z v c).getLsbD 1 = v ∧ (flagBits n z v c).getLsbD 0 = c := by
  revert n z v c
  decide

/-- The flags together are the flags one by one. -/
theorem State.flags_eq_iff (s : State) (n z v c : Bool) : s.flags = flagBits n z v c ↔
    s.psw 3 = n ∧ s.psw 2 = z ∧ s.psw 1 = v ∧ s.psw 0 = c := by
  have hbits := getLsbD_flagBits n z v c
  have hpsw : ∀ j < 4, s.psw j = s.flags.getLsbD j := fun j hj => s.psw_eq_flags hj
  constructor
  · intro h
    rwa [hpsw 3 (by decide), hpsw 2 (by decide), hpsw 1 (by decide), hpsw 0 (by decide), h]
  · intro h
    obtain ⟨bit3, bit2, bit1, bit0⟩ := hbits
    obtain ⟨hn, hz, hv, hc⟩ := h
    apply BitVec.eq_of_getLsbD_eq
    intro j hj
    rw [← hpsw j hj]
    obtain rfl | rfl | rfl | rfl : j = 3 ∨ j = 2 ∨ j = 1 ∨ j = 0 := by omega
    · rw [hn, bit3]
    · rw [hz, bit2]
    · rw [hv, bit1]
    · rw [hc, bit0]

/-- What a right part has to make for its operation to be done (R542, R544): its result in the destination, and unless
it is a `noflags` form the flags and, on overflow of an arithmetic operation, the request. -/
structure Operates (r : SRight) (nf : Bool) (d : Option Ix) (x : Word) (v c arith : Bool) (s : State) : Prop where
  writes : r.grWrites = d.toList
  sets : setsFlags r = !nf
  dst : ∀ j, d = some j → (s.rightPart r).gr j = x
  flags : nf = false → (s.rightPart r).flags = (aluOut x v c).flags
  ireq : (s.rightPart r).ireq = if nf = false ∧ arith = true ∧ v = true then s.ireq ||| BitVec.twoPow 9 7 else s.ireq

/-- An operation of the right part is done beside every left part. -/
theorem Operates.row {i : Instr} {s : State} {p : Bool} {l : SLeft} {k : Word} {r : SRight} {nf : Bool} {d : Option Ix}
    {x : Word} {v c arith : Bool} (h : Operates r nf d x v c arith s) (hc : i.code = ⟨.scalar p l r, l.constOf k⟩) :
    rightRow i l k s (OperationPost l nf d x v c arith s) :=
  rightRow_of_stays hc fun t ht =>
    { dst := fun j hj => (ht.gr j (ht.apart j (by simp [h.writes, hj]))).trans (h.dst j hj)
      gr := fun j hj hl => (ht.gr j hl).trans (s.rightPart_gr r (by simpa [h.writes] using hj))
      flags := fun hn hl => (t.flags_eq_iff ..).mp ((State.flags_congr (ht.pswr hl)).trans (h.flags hn))
      high := fun hl n hn => (State.psw_congr (ht.pswr hl) n).trans (s.rightPart_psw r hn)
      kept := fun hn hl => (ht.pswr hl).trans (s.rightPart_pswr r (by rw [h.sets, hn]; rfl))
      ireq := ht.ireq.trans h.ireq
      pending := ht.pending }

/-! ### Arithmetic and logic (R545 to R547) -/

/-- Whether a form is the `noflags` one (R547). -/
def isNoflags : AluForm → Bool
  | .noflags _ => true
  | .std _ | .flagsOnly => false

/-- A function that is no multiply step writes its output in one of the three forms. -/
theorem State.rightPart_alu (s : State) (f : AluForm) {fn : AluFn} (a b : Ix) (hfn : fn.isMul = false) :
    s.rightPart (.alu f fn a b) =
      s.aluWrite f (fn.out s.params.carrySense (s.gr a) (s.gr b) (s.psw 0)) fn := by
  cases fn <;> first | rfl | exact absurd hfn nofun

theorem State.flags_requestSpr (s : State) (fn : AluFn) (f : BitVec 4) : (s.requestSpr fn f).flags = s.flags :=
  State.flags_congr (s.requestSpr_pswr fn f)

/-- SPR is requested when an arithmetic operation overflows (R544). -/
theorem State.requestSpr_ireq (s : State) (fn : AluFn) (x : Word) (v c : Bool) :
    (s.requestSpr fn (aluOut x v c).flags).ireq =
      if fn.requestsSpr = true ∧ v = true then s.ireq ||| BitVec.twoPow 9 7 else s.ireq := by
  have hv : (aluOut x v c).flags.getLsbD 1 = v := (getLsbD_flagBits ..).2.2.1
  simp only [State.requestSpr, hv, Bool.and_eq_true]
  split <;> rfl

theorem operates_alu {s : State} (f : AluForm) {fn : AluFn} {a b : Ix} {x : Word} {v c : Bool} (hfn : fn.isMul = false)
    (hout : fn.out s.params.carrySense (s.gr a) (s.gr b) (s.psw 0) = aluOut x v c) :
    Operates (.alu f fn a b) (isNoflags f) f.dst x v c fn.requestsSpr s where
  writes := by simp [SRight.grWrites, hfn]
  sets := by cases f <;> rfl
  dst := by
    rw [State.rightPart_alu s f a b hfn, hout]
    rintro j hj
    cases f with
    | std d =>
      obtain rfl : d = j := by simpa [AluForm.dst] using hj
      rw [State.aluWrite, State.gr_congr (State.requestSpr_grs ..)]
      simp [aluOut]
    | flagsOnly => cases hj
    | noflags d =>
      obtain rfl : d = j := by simpa [AluForm.dst] using hj
      exact State.gr_setGr_self ..
  flags := by
    rw [State.rightPart_alu s f a b hfn, hout]
    intro hn
    cases f with
    | std d => exact (State.flags_requestSpr ..).trans (State.flags_setFlags ..)
    | flagsOnly => exact (State.flags_requestSpr ..).trans (State.flags_setFlags ..)
    | noflags d => cases hn
  ireq := by
    rw [State.rightPart_alu s f a b hfn, hout]
    cases f with
    | std d => simp [State.aluWrite, State.requestSpr_ireq, isNoflags]
    | flagsOnly => simp [State.aluWrite, State.requestSpr_ireq, isNoflags]
    | noflags d => rfl

/-- A row of the standard and the `noflags` form. -/
theorem alu_row {i : Instr} {s : State} {p : Bool} {l : SLeft} {k : Word} {nf : Bool} {d a b : Ix} {x : Word}
    {v c arith : Bool} (fn : AluFn) (hc : i.code = ⟨.scalar p l (.alu (.withDst nf d) fn a b), l.constOf k⟩)
    (hfn : fn.isMul = false) (harith : fn.requestsSpr = arith)
    (hout : fn.out s.params.carrySense (s.gr a) (s.gr b) (s.psw 0) = aluOut x v c) :
    rightRow i l k s (OperationPost l nf (some d) x v c arith s) := by
  subst harith
  have h := (operates_alu (.withDst nf d) hfn hout).row hc
  cases nf <;> exact h

/-- A row of the flags-only form (R546). -/
theorem flagsOnly_row {i : Instr} {s : State} {p : Bool} {l : SLeft} {k : Word} {a b : Ix} {x : Word} {v c arith : Bool}
    (fn : AluFn) (hc : i.code = ⟨.scalar p l (.alu .flagsOnly fn a b), l.constOf k⟩) (hfn : fn.isMul = false)
    (harith : fn.requestsSpr = arith)
    (hout : fn.out s.params.carrySense (s.gr a) (s.gr b) (s.psw 0) = aluOut x v c) :
    rightRow i l k s (OperationPost l false none x v c arith s) := by
  subst harith
  exact (operates_alu .flagsOnly hfn hout).row hc

/-- A row of the adding class (R542). -/
theorem add_row {i : Instr} {s : State} {p : Bool} {l : SLeft} {k : Word} {nf : Bool} {d a b : Ix} {A X : Word}
    {cin : Bool} (fn : AluFn) (hc : i.code = ⟨.scalar p l (.alu (.withDst nf d) fn a b), l.constOf k⟩)
    (hfn : fn.isMul = false) (harith : fn.requestsSpr = true)
    (hout : fn.out s.params.carrySense (s.gr a) (s.gr b) (s.psw 0) = addClass A X cin) :
    rightRow i l k s (OperationPost l nf (some d) (A + X + BitVec.ofNat 32 cin.toNat)
      (decide (A.toInt + X.toInt + cin.toNat < -2 ^ 31 ∨ 2 ^ 31 ≤ A.toInt + X.toInt + cin.toNat))
      (decide (2 ^ 32 ≤ A.toNat + X.toNat + cin.toNat)) true s) :=
  alu_row fn hc hfn harith (hout.trans (addClass_eq A X cin))

/-- Settles O35: every row is an addition. -/
theorem addRows : Obligations.AddRows := by
  intro s p nf l k d a b
  simp only [List.forall_mem_cons]
  exact ⟨add_row .add rfl rfl rfl rfl, add_row .add rfl rfl rfl rfl, add_row .inc rfl rfl rfl rfl,
    add_row .inc rfl rfl rfl rfl, add_row .addC rfl rfl rfl rfl, add_row .addBC rfl rfl rfl rfl, by simp⟩

/-- A row of the subtracting class (R542, R543). -/
theorem sub_row {i : Instr} {s : State} {p : Bool} {l : SLeft} {k : Word} {nf : Bool} {d a b : Ix} {A X : Word}
    {cin : Bool} (fn : AluFn) (hc : i.code = ⟨.scalar p l (.alu (.withDst nf d) fn a b), l.constOf k⟩)
    (hfn : fn.isMul = false) (harith : fn.requestsSpr = true)
    (hout : fn.out s.params.carrySense (s.gr a) (s.gr b) (s.psw 0) = subClass s.params.carrySense A X cin) :
    rightRow i l k s (OperationPost l nf (some d) (A - X - 1 + BitVec.ofNat 32 cin.toNat)
      (decide (A.toInt - X.toInt - 1 + cin.toNat < -2 ^ 31 ∨ 2 ^ 31 ≤ A.toInt - X.toInt - 1 + cin.toNat))
      (match s.params.carrySense with
        | .borrow => decide ((A.toNat : Int) - X.toNat - 1 + cin.toNat < 0)
        | .notBorrow => decide (0 ≤ (A.toNat : Int) - X.toNat - 1 + cin.toNat)) true s) :=
  alu_row fn hc hfn harith (hout.trans (subClass_eq s.params.carrySense A X cin))

/-- Settles O36: every row is a subtraction. -/
theorem subRows : Obligations.SubRows := by
  intro s p nf l k d a b
  simp only [List.forall_mem_cons]
  exact ⟨sub_row .sub rfl rfl rfl rfl, sub_row .sub rfl rfl rfl rfl, sub_row .dec rfl rfl rfl rfl,
    sub_row .dec rfl rfl rfl rfl, sub_row .subC rfl rfl rfl rfl, sub_row .subBC rfl rfl rfl rfl,
    sub_row .neg rfl rfl rfl rfl, by simp⟩

/-- A row of the logical class (R542). -/
theorem logic_row {i : Instr} {s : State} {p : Bool} {l : SLeft} {k : Word} {nf : Bool} {d a b : Ix} {x y : Word}
    (fn : AluFn) (hc : i.code = ⟨.scalar p l (.alu (.withDst nf d) fn a b), l.constOf k⟩)
    (hfn : fn.isMul = false) (harith : fn.requestsSpr = false)
    (hout : fn.out s.params.carrySense (s.gr a) (s.gr b) (s.psw 0) = logicClass y) (hy : y = x) :
    rightRow i l k s (OperationPost l nf (some d) x false false false s) :=
  alu_row fn hc hfn harith (hout.trans (congrArg logicClass hy))

/-- Settles O37: every row is a word operation; De Morgan's laws for the complemented operands. -/
theorem logicRows : Obligations.LogicRows := by
  rintro s p nf l k _ _ d a b rfl rfl
  simp only [List.forall_mem_cons]
  exact ⟨logic_row .or rfl rfl rfl rfl rfl, logic_row .and rfl rfl rfl rfl rfl, logic_row .xor rfl rfl rfl rfl rfl,
    logic_row .not rfl rfl rfl rfl rfl, logic_row .notAorB rfl rfl rfl rfl rfl,
    logic_row .AorNotB rfl rfl rfl rfl rfl, logic_row .copy rfl rfl rfl rfl rfl,
    logic_row .notAorNotB rfl rfl rfl rfl BitVec.not_and.symm, logic_row .notAandB rfl rfl rfl rfl rfl,
    logic_row .AandNotB rfl rfl rfl rfl rfl, logic_row .notAandNotB rfl rfl rfl rfl BitVec.not_or.symm,
    logic_row .notAxorB rfl rfl rfl rfl BitVec.not_xor_left.symm,
    logic_row .AxorNotB rfl rfl rfl rfl BitVec.not_xor_right.symm, logic_row .fls rfl rfl rfl rfl rfl,
    logic_row .tru rfl rfl rfl rfl rfl, by simp⟩

/-! ### The shifts by 1 to 31 (R601 to R607) -/

theorem shiftIsNul_false {n : Fin 33} (h1 : 1 ≤ n.val) (h31 : n.val ≤ 31) : shiftIsNul n = false := by
  rw [shiftIsNul, Bool.or_eq_false_iff, beq_eq_false_iff_ne, beq_eq_false_iff_ne]
  constructor <;> (rintro rfl; simp at h1 h31)

theorem operates_shift {s : State} (kind : ShiftKind) (d a : Ix) {n : Fin 33} (hn : shiftIsNul n = false) :
    Operates (.shift kind d a n) false (some d) (kind.result (s.gr a) n (s.psw 0)) (s.shiftV kind (s.gr a) n)
      (kind.carry (s.gr a) n) false s where
  writes := by simp [SRight.grWrites, hn]
  sets := by simp [setsFlags, hn]
  dst := by
    rintro _ ⟨⟩
    simp [State.rightPart, hn, State.shiftOut, aluOut]
  flags := by
    intro _
    simp [State.rightPart, hn, State.shiftOut]
  ireq := by simp [State.rightPart, hn]

/-- A row of the shifts. -/
theorem shift_row {i : Instr} {s : State} {p : Bool} {l : SLeft} {k : Word} {d a : Ix} {n : Fin 33} {x : Word}
    (kind : ShiftKind) (hc : i.code = ⟨.scalar p l (.shift kind d a n), l.constOf k⟩) (hn : shiftIsNul n = false)
    (hx : kind.result (s.gr a) n (s.psw 0) = x) :
    rightRow i l k s (OperationPost l false (some d) x (s.params.shiftOverflow.contains (kind, s.gr a, n))
      (kind.carry (s.gr a) n) false s) := by
  subst hx
  exact (operates_shift kind d a hn).row hc

/-- A rotate of a word as two shifts (R604, R605). -/
theorem result_rol (A : Word) (c : Bool) {n : Nat} (h : n ≤ 31) : ShiftKind.result .rol A n c = A.rotateLeft n := by
  rw [BitVec.rotateLeft_def, Nat.mod_eq_of_lt (by omega)]; rfl

theorem result_ror (A : Word) (c : Bool) {n : Nat} (h : n ≤ 31) : ShiftKind.result .ror A n c = A.rotateRight n := by
  rw [BitVec.rotateRight_def, Nat.mod_eq_of_lt (by omega)]; rfl

/-- C comes in at bit 0 (R606). -/
theorem result_rcl (A : Word) (c : Bool) : ShiftKind.result .rcl A 1 c = A <<< 1 ||| (if c then 1 else 0) := by
  simp only [ShiftKind.result]
  apply BitVec.eq_of_getLsbD_eq
  intro j hj
  rw [BitVec.getLsbD_append, BitVec.getLsbD_or, BitVec.getLsbD_shiftLeft, BitVec.getLsbD_extractLsb']
  rcases j with _ | j
  · cases c <;> simp
  · have h31 : j < 31 := by omega
    cases c <;> simp [h31, hj]

/-- C comes in at bit 31 (R607). -/
theorem result_rcr (A : Word) (c : Bool) :
    ShiftKind.result .rcr A 1 c = A >>> 1 ||| (if c then 0x80000000 else 0) := by
  simp only [ShiftKind.result]
  rw [show (0x80000000 : Word) = BitVec.twoPow 32 31 from rfl]
  apply BitVec.eq_of_getLsbD_eq
  intro j hj
  rw [BitVec.getLsbD_append, BitVec.getLsbD_or, BitVec.getLsbD_ushiftRight, BitVec.getLsbD_extractLsb']
  by_cases h31 : j < 31
  · cases c <;> simp [h31, BitVec.getLsbD_twoPow, show ¬ 31 = j by omega]
  · obtain rfl : j = 31 := by omega
    cases c <;> simp

/-- Settles O40: every row is a shift, the rotates as words. -/
theorem shiftRows : Obligations.ShiftRows := by
  rintro s p l k _ d a n h1 h31 rfl
  have hn := shiftIsNul_false h1 h31
  simp only [List.forall_mem_cons]
  exact ⟨shift_row .shl rfl hn rfl, shift_row .shr rfl hn rfl, shift_row .sar rfl hn rfl,
    shift_row .rol rfl hn (result_rol _ _ h31), shift_row .ror rfl hn (result_ror _ _ h31),
    shift_row .rcl rfl rfl (result_rcl _ _), shift_row .rcr rfl rfl (result_rcr _ _), by simp⟩

/-! ### The multiply steps (R575, R576) -/

/-- The first and the next multiply step. -/
def mulFn (first : Bool) : AluFn := if first then .mulFirst else .mulNext

theorem State.rightPart_mul (s : State) (first nf : Bool) (d a b : Ix) :
    s.rightPart (.alu (.withDst nf d) (mulFn first) a b) = s.mulWrite first nf d a := by
  cases first <;> cases nf <;> rfl

/-- A multiply step names its destination and gr7. -/
theorem grWrites_mul (first nf : Bool) (d a b : Ix) :
    (SRight.alu (.withDst nf d) (mulFn first) a b).grWrites = [d, 7] := by
  cases first <;> cases nf <;> rfl

/-- The registers after a multiply step with another destination than gr7. -/
theorem State.gr_mulWrite_of_ne (s : State) (first nf : Bool) {d : Ix} (a : Ix) (hd : d ≠ 7) :
    (s.mulWrite first nf d a).gr d = (mulStep first (s.gr a) (s.gr 7) s.flags).1 ∧
    (s.mulWrite first nf d a).gr 7 = (mulStep first (s.gr a) (s.gr 7) s.flags).2.1 := by
  cases nf <;> simp [State.mulWrite, State.mulRegs, hd, State.gr_setGr, Ne.symm hd]

/-- gr7 after a multiply step into it. -/
theorem State.gr_mulWrite_seven (s : State) (first nf : Bool) (a : Ix) :
    (s.mulWrite first nf 7 a).gr 7 = Config.mulOnGr7 first (s.gr a) (s.gr 7) s.flags := by
  cases nf <;> simp [State.mulWrite, State.mulRegs]

theorem State.mulRegs_pswr (s : State) (first : Bool) (d a : Ix) : (s.mulRegs first d a).pswr = s.pswr := by
  unfold State.mulRegs
  split <;> rfl

theorem State.flags_mulWrite (s : State) (first nf : Bool) (d a : Ix) : (s.mulWrite first nf d a).flags =
    if nf then s.flags else (mulStep first (s.gr a) (s.gr 7) s.flags).2.2 := by
  cases nf with
  | true => exact State.flags_congr (s.mulRegs_pswr first d a)
  | false => exact State.flags_setFlags ..

theorem State.mulWrite_ireq (s : State) (first nf : Bool) (d a : Ix) : (s.mulWrite first nf d a).ireq = s.ireq := by
  unfold State.mulWrite State.mulRegs
  repeat' split
  all_goals rfl

/-- A row of the multiply steps. -/
theorem mul_row {i : Instr} {s : State} {p : Bool} {l : SLeft} {k : Word} {nf : Bool} {d a : Ix} (first : Bool)
    (hc : i.code = ⟨.scalar p l (.alu (.withDst nf d) (mulFn first) a 7), l.constOf k⟩) :
    rightRow i l k s fun t =>
      (d ≠ 7 → t.gr d = (mulStep first (s.gr a) (s.gr 7) s.flags).1 ∧
        t.gr 7 = (mulStep first (s.gr a) (s.gr 7) s.flags).2.1) ∧
      (d = 7 → t.gr 7 = Config.mulOnGr7 first (s.gr a) (s.gr 7) s.flags) ∧
      (∀ j, j ≠ d → j ≠ 7 → l.grWrite ≠ some j → t.gr j = s.gr j) ∧
      (keepsPswr l = true →
        t.flags = (if nf then s.flags else (mulStep first (s.gr a) (s.gr 7) s.flags).2.2) ∧
          ∀ n, 4 ≤ n → t.psw n = s.psw n) ∧
      t.ireq = s.ireq := by
  refine rightRow_of_stays hc fun t ht => ?_
  have hmul := s.rightPart_mul first nf d a 7
  have hwrites := grWrites_mul first nf d a 7
  have hgr : ∀ j ∈ [d, 7], t.gr j = (s.mulWrite first nf d a).gr j := fun j hj =>
    (ht.gr j (ht.apart j (hwrites ▸ hj))).trans (by rw [hmul])
  refine ⟨fun hd => ?_, ?_, fun j hd h7 hl => ?_, fun hl => ⟨?_, fun n hn => ?_⟩, ?_⟩
  · rw [hgr d (by simp), hgr 7 (by simp)]
    exact s.gr_mulWrite_of_ne first nf a hd
  · rintro rfl
    rw [hgr 7 (by simp)]
    exact s.gr_mulWrite_seven first nf a
  · exact (ht.gr j hl).trans (s.rightPart_gr _ (by simp [hwrites, hd, h7]))
  · rw [State.flags_congr (ht.pswr hl), hmul]
    exact s.flags_mulWrite first nf d a
  · exact (State.psw_congr (ht.pswr hl) n).trans (s.rightPart_psw _ hn)
  · rw [ht.ireq, hmul]
    exact s.mulWrite_ireq first nf d a

/-- Settles O42: both rows are multiply steps. -/
theorem mulRows : Obligations.MulRows := by
  intro s p nf l k d a
  simp only [List.forall_mem_cons]
  exact ⟨mul_row true rfl, mul_row false rfl, by simp⟩

end Sys2Proof.Machine
end

section
/-! PROOFS. The flags-only forms, and the shift by 0 or 32: an instruction whose right part makes another state of the
general-purpose registers, or the same state by another code. -/

namespace Sys2Proof.Machine

open Sys2Proof

/-! ### Flags-only rows (R577, R595 to R599) -/

/-- The value, the overflow and the borrow of `- gr` (R596). -/
theorem subClass_zero (A : Word) : subClass .borrow 0 A true =
    aluOut (0 - A) (decide (A = 0x80000000)) (decide (A ≠ 0)) := by
  have hword : (0 : Word) - A - 1 + BitVec.ofNat 32 true.toNat = 0 - A := by
    rw [show BitVec.ofNat 32 true.toNat = (1 : Word) from rfl]
    exact BitVec.sub_add_cancel ..
  have hA := A.isLt
  have hoverflow : ((0 : Word).toInt - A.toInt - 1 + (true.toNat : Int) < -2 ^ 31 ∨
      2 ^ 31 ≤ (0 : Word).toInt - A.toInt - 1 + (true.toNat : Int)) ↔ A = 0x80000000 := by
    rw [← BitVec.toNat_inj, Word.toInt_eq A]
    simp
    split <;> omega
  have hborrow : (((0 : Word).toNat : Int) - A.toNat - 1 + (true.toNat : Int) < 0) ↔ A ≠ 0 := by
    rw [Ne, ← BitVec.toNat_inj]
    simp
    omega
  simp only [subClass_eq, hword, hoverflow, hborrow]

/-- The sum of two words, without carry in (R577). -/
theorem addClass_noCarry (A B : Word) : addClass A B false = aluOut (A + B)
    (decide (A.toInt + B.toInt < -2 ^ 31 ∨ 2 ^ 31 ≤ A.toInt + B.toInt)) (decide (2 ^ 32 ≤ A.toNat + B.toNat)) := by
  simpa using addClass_eq A B false

/-- A row of the logical class without a destination: its flags, one by one too, and no register. -/
theorem logicFlags_row {i : Instr} {s : State} {p : Bool} {l : SLeft} {k : Word} {a b : Ix} {x : Word} {n z : Bool}
    (fn : AluFn) (hc : i.code = ⟨.scalar p l (.alu .flagsOnly fn a b), l.constOf k⟩) (hk : keepsPswr l = true)
    (hfn : fn.isMul = false) (hout : fn.out s.params.carrySense (s.gr a) (s.gr b) (s.psw 0) = logicClass x)
    (hn : x.msb = n) (hz : decide (x = 0) = z) :
    rightRow i l k s fun t => t.flags = flagBits n z false false ∧ (∀ j, l.grWrite ≠ some j → t.gr j = s.gr j) ∧
      t.psw 3 = n ∧ t.psw 2 = z ∧ t.psw 1 = false ∧ t.psw 0 = false := by
  subst hn hz
  exact (flagsOnly_row fn hc hfn rfl hout).mono fun t ht =>
    ⟨(t.flags_eq_iff ..).mpr (ht.flags rfl hk), fun j hj => ht.gr j nofun hj, ht.flags rfl hk⟩

/-- Settles O39: the results are the word of all ones and the word 0; each condition looks at their flags. -/
theorem trueFalseRows : Obligations.TrueFalseRows := by
  intro s p l k hk
  constructor
  · refine (logicFlags_row (n := true) (z := false) .tru rfl hk rfl rfl rfl rfl).mono
      fun t ⟨hflags, hgr, hn, hz, hv, hc⟩ => ⟨hflags, hgr, fun c => ?_⟩
    cases c <;> simp [Cond.holds, hn, hz, hv, hc]
  · refine (logicFlags_row (n := false) (z := true) .fls rfl hk rfl rfl rfl rfl).mono
      fun t ⟨hflags, hgr, hn, hz, hv, hc⟩ => ⟨hflags, hgr, fun c => ?_⟩
    cases c <;> simp [Cond.holds, hn, hz, hv, hc]

/-! ### The left part beside another right part -/

theorem State.setGr_comm (s : State) {i j : Ix} (v w : Word) (h : i ≠ j) :
    (s.setGr i v).setGr j w = (s.setGr j w).setGr i v :=
  congrArg (fun grs => { s with grs := grs }) (Vector.set_comm v w (Fin.val_ne_of_ne h))

theorem State.applyUpd_setGr (s : State) (d : Ix) (v : Word) (u : Option (Ix × Word)) :
    (s.setGr d v).applyUpd u = (s.applyUpd u).setGr d v := by
  cases u <;> rfl

theorem State.writeReg_setGr (s : State) {d : Ix} (v : Word) {r : Reg} (x : Long) (h : r.grPart ≠ some d) :
    (s.setGr d v).writeReg r x = (s.writeReg r x).setGr d v := by
  have hspec : ∀ (s : State) (q : SpecReg) (w : Word), (s.setGr d v).writeSpec q w = (s.writeSpec q w).setGr d v := by
    intro s q w
    cases q <;> rfl
  have hgr : ∀ (s : State) {n : Ix} (w : Word), some n ≠ some d →
      (s.setGr d v).setGr n w = (s.setGr n w).setGr d v := fun s n w hn =>
    s.setGr_comm v w fun hd => hn (congrArg some hd.symm)
  cases r with
  | ar n => rfl
  | gr n => exact hgr s _ h
  | pair n => exact hgr (s.setAr n _) _ h
  | special q =>
    cases q with
    | one q => exact hspec ..
    | two q => simp only [State.writeReg, hspec]
  | vctl c => rcases c with c | c <;> cases c <;> rfl

theorem State.write32_setGr (s : State) (d : Ix) (v a w : Word) :
    (s.setGr d v).write32 a w = (s.write32 a w).setGr d v := by
  have hb : (s.setGr d v).backed a = s.backed a := rfl
  unfold State.write32
  rw [hb]
  split <;> rfl

theorem State.write64_setGr (s : State) (d : Ix) (v a : Word) (w : Long) :
    (s.setGr d v).write64 a w = (s.write64 a w).setGr d v := by
  simp only [State.write64, State.write32_setGr]

theorem State.action_setGr {t u : State} (d : Ix) (v : Word) {kind : XferKind} {target ret : Word}
    (h : t.action kind target ret = .ok u) : (t.setGr d v).action kind target ret = .ok (u.setGr d v) := by
  rcases State.action_ok h with ⟨rfl, rfl⟩ | ⟨rfl, ho, rfl⟩ | ⟨rfl, ho, rfl⟩ | ⟨rfl, ho, rfl⟩
  · rfl
  · refine (State.callTo_of_even (t.setGr d v) target ret ho).trans ?_
    rw [State.write64_setGr]
    rfl
  · exact State.returnFromCall_of_even (t.setGr d v) ho
  · exact State.returnFromInterrupt_of_even (t.setGr d v) ho

/-- A left part leaves a general-purpose register it does not name, whatever that holds. -/
theorem State.leftPart_setGr {s t u : State} {d : Ix} (v : Word) {l : SLeft} {k : Word} {n : Nat}
    (hl : l.grWrite ≠ some d) (h : s.leftPart t l k n = .ok u) :
    s.leftPart (t.setGr d v) l k n = .ok (u.setGr d v) := by
  have hload : ∀ {r m}, r.grPart ≠ some d → s.doLoad t r m k = .ok u →
      s.doLoad (t.setGr d v) r m k = .ok (u.setGr d v) := by
    intro r m hr h
    obtain ⟨x, hx, rfl⟩ := State.doLoad_ok h
    rw [State.doLoad, hx, ← State.writeReg_setGr _ v x hr, State.applyUpd_setGr]
  have hstore : ∀ {r m}, s.doStore t m r k = .ok u → s.doStore (t.setGr d v) m r k = .ok (u.setGr d v) := by
    intro r m h
    obtain ⟨w, hw, rfl⟩ := State.doStore_ok h
    have hw' : (t.setGr d v).store r.wide (m.ea k r.step s) (s.readReg r) = .ok (w.setGr d v) := by
      unfold State.store
      rcases State.store_ok hw with ⟨hwide, ho, rfl⟩ | ⟨hwide, rfl⟩
      · simp only [hwide, ho, State.write64_setGr]; rfl
      · simp only [hwide, State.write32_setGr]; rfl
    rw [State.doStore, hw', ← State.applyUpd_setGr]
  cases l with
  | load r m => exact hload hl h
  | pop r => exact hload hl h
  | store m r => exact hstore h
  | push r => exact hstore h
  | copy r q => injection h with h; subst h; exact congrArg _ (State.writeReg_setGr _ v _ hl)
  | setConst r => injection h with h; subst h; exact congrArg _ (State.writeReg_setGr _ v _ hl)
  | xfer c e x =>
    rcases State.doXfer_ok h with ⟨hp, hc, rfl⟩ | ⟨hp, rfl, rfl⟩ | ⟨hp, rfl, hc, ha⟩ | ⟨hp, rfl, hc, rfl⟩
    · exact State.doXfer_of_notTaken _ x k n (.inr hp) hc
    · exact State.doXfer_of_delayed _ x k n hp
    · exact (State.doXfer_of_taken _ x k n hp hc).trans (State.action_setGr d v ha)
    · exact State.doXfer_of_notTaken _ x k n (.inl rfl) hc
  | nul => injection h with h; subst h; rfl
  | nulC => injection h with h; subst h; rfl
  | popDrop => injection h with h; subst h; rfl
  | arMod o => injection h with h; subst h; rfl
  | pswrSet => injection h with h; subst h; rfl
  | pswrClear => injection h with h; subst h; rfl

/-! ### The number of delayed instructions (R475) -/

theorem sameRecord_refl (l : SLeft) (s : State) (q : Option Pending) : sameRecord l s q q := ⟨rfl, fun _ => rfl⟩

/-- A delayed transfer that is not among delayed instructions, or none. -/
theorem delayed_cases (l : SLeft) (s : State) : ((∀ c x, l ≠ .xfer c true x) ∨ s.pending.isSome = true) ∨
    ∃ c x, l = .xfer c true x ∧ s.pending = none := by
  cases hp : s.pending with
  | some q => exact .inl (.inr rfl)
  | none => by_cases hx : ∃ c x, l = .xfer c true x <;> simp_all

/-- Only a delayed transfer that is not among delayed instructions looks at the number. -/
theorem State.leftPart_slots_eq {s : State} {l : SLeft} (h : (∀ c x, l ≠ .xfer c true x) ∨ s.pending.isSome = true)
    (t : State) (k : Word) (n m : Nat) : s.leftPart t l k n = s.leftPart t l k m := by
  cases l
  case xfer c d x =>
    cases d with
    | false => rfl
    | true =>
      have hp : s.pending.isSome = true := h.resolve_left fun hx => hx c x rfl
      simp only [State.leftPart, State.doXfer, hp, if_true]
  all_goals rfl

/-- A left part with another number of delayed instructions leaves the same but for that number. -/
theorem State.leftPart_slots {s t u : State} {l : SLeft} {k : Word} {n : Nat} (m : Nat)
    (h : s.leftPart t l k n = .ok u) (hnm : s.params.delaySlots = [] → m = n) :
    ∃ q, s.leftPart t l k m = .ok (u.withPending q) ∧ sameRecord l s u.pending q := by
  rcases delayed_cases l s with hx | ⟨c, x, rfl, hp⟩
  · exact ⟨u.pending, (State.leftPart_slots_eq hx t k m n).trans h, sameRecord_refl ..⟩
  · obtain rfl : t.withPending _ = u := Except.ok.inj ((State.doXfer_of_delayed t x k n hp).symm.trans h)
    refine ⟨_, State.doXfer_of_delayed t x k m hp, rfl, ?_⟩
    rintro (hd | hd)
    · exact absurd rfl (hd c x)
    · rw [hnm hd]; rfl

theorem State.slots_of_default {s : State} (h : s.params.delaySlots = []) (c d : Code) : s.slots c = s.slots d := by
  simp [State.slots, h, slotsAt]

/-! ### The flags-only form of any expression (R597) -/

/-- The standard form does what the flags-only form does, and writes the result. -/
theorem State.rightPart_std (s : State) {fn : AluFn} (a b d : Ix) (hfn : fn.isMul = false) :
    s.rightPart (.alu (.std d) fn a b) = (s.rightPart (.alu .flagsOnly fn a b)).setGr d
      (fn.out s.params.carrySense (s.gr a) (s.gr b) (s.psw 0)).r := by
  rw [State.rightPart_alu s _ a b hfn, State.rightPart_alu s _ a b hfn]
  simp only [State.aluWrite, State.requestSpr]
  split <;> rfl

/-- A flags-only form of the tables is no multiply step, and its standard form is one of the tables beside a left part
that does not write the destination (R548, R597). -/
theorem scalarDefect_std {l : SLeft} {fn : AluFn} {a b d : Ix} (h : scalarDefect l (.alu .flagsOnly fn a b) = none)
    (hl : l.grWrite ≠ some d) : fn.isMul = false ∧ scalarDefect l (.alu (.std d) fn a b) = none := by
  simp only [scalarDefect, Option.or_eq_none_iff, SRight.defect, AluForm.dst, Option.isNone_none, Bool.and_true] at h
  obtain ⟨⟨hleft, hmul, hoperand⟩, -⟩ := h
  have hfn : fn.isMul = false := by
    cases hm : fn.isMul with
    | false => rfl
    | true => rw [hm] at hmul; cases hmul
  refine ⟨hfn, ?_⟩
  have hpair : pairDefect l (.alu (.std d) fn a b) = none := by
    unfold pairDefect
    cases hw : l.grWrite with
    | none => rfl
    | some j =>
      have hj : j ≠ d := fun e => hl (by rw [hw, e])
      simp [SRight.grWrites, AluForm.dst, hfn, hj]
  simp [scalarDefect, hleft, SRight.defect, AluForm.dst, hoperand, hpair]

/-- The flags-only form of an expression, beside its standard form `i`. -/
theorem testExpr_row {s : State} {p q : Bool} {l : SLeft} {k : Word} {fn : AluFn} {a b d : Ix} {i : Instr}
    (hc : i.code = ⟨.scalar q l (.alu (.std d) fn a b), l.constOf k⟩) (hd : l.grWrite ≠ some d) :
    rightRow (.testExpr p l k fn a b) l k s fun t =>
      (∀ j, l.grWrite ≠ some j → t.gr j = s.gr j) ∧
      ∃ v q, exec i s = .next ({ t with pending := q }.setGr d v) ∧ sameRecord l s t.pending q := by
  intro hwf hl hp
  obtain ⟨hfn, hstd⟩ := scalarDefect_std (scalarDefect_of_wellFormed (i := .testExpr p l k fn a b) rfl hwf) hd
  have hwf' : i.wellFormed = true := by
    rw [Instr.wellFormed, hc]
    exact (Low.wellFormed_iff _).mpr hstd
  have hright := s.rightPart_std a b d hfn
  obtain ⟨u, hu⟩ := State.leftPart_of_ready (t := (s.rightPart (.alu .flagsOnly fn a b)).advance l.len) hl hp (by simp)
    (s.slots (Instr.testExpr p l k fn a b).code)
  obtain ⟨q', hu', hq'⟩ := State.leftPart_slots (s.slots i.code) (State.leftPart_setGr _ hd hu)
    fun h => State.slots_of_default h ..
  have hexec := exec_of_left (i := .testExpr p l k fn a b) rfl hwf hl.1 hu
  have hexec' := exec_of_left hc hwf' (fun h => hl.1 (by rwa [hc] at h)) (by rw [hright]; exact hu')
  rw [hp, State.finish_none] at hexec hexec'
  refine ⟨_, hexec, fun j hj => ?_, _, q', hexec', hq'⟩
  calc u.clearFifos.tickFree.gr j = u.gr j := by simp
    _ = ((s.rightPart (.alu .flagsOnly fn a b)).advance l.len).gr j := State.leftPart_gr hu j hj
    _ = s.gr j := by
      rw [State.gr_advance]
      exact s.rightPart_gr _ (by simp [SRight.grWrites, AluForm.dst, hfn])

/-- Settles O38: three rows without a destination, and every flags-only form beside its standard form. -/
theorem flagsOnlyRows : Obligations.FlagsOnlyRows := by
  refine ⟨fun s p l k a b => ⟨?_, ?_, fun hsense => ?_⟩, fun s p q l k fn a b d i hc hd => testExpr_row hc hd⟩
  · exact flagsOnly_row .add rfl rfl rfl (addClass_noCarry ..)
  · exact flagsOnly_row .copy rfl rfl rfl rfl
  · exact flagsOnly_row .neg rfl rfl rfl (by rw [hsense]; exact subClass_zero _)

/-! ### A shift by 0 or 32 (R600) -/

section
variable {p : Bool} {l : SLeft} {k : Word} {r r' : SRight} {s : State}
  (hd : scalarDefect l r = scalarDefect l r') (hr : s.rightPart r = s.rightPart r')
include hd hr

/-- Two right parts of one effect make one instruction, unless the left part is a delayed transfer. -/
theorem runScalar_congr (h : (∀ c x, l ≠ .xfer c true x) ∨ s.pending.isSome = true) :
    runScalar p l k r s = runScalar p l k r' s := by
  unfold runScalar
  rw [hd, hr, State.leftPart_slots_eq h]

theorem runScalar_next_congr {t : State} (h : runScalar p l k r' s = .next t) :
    ∃ q, runScalar p l k r s = .next { t with pending := q } ∧ sameRecord l s t.pending q := by
  cases hp : s.pending with
  | some d => exact ⟨t.pending, (runScalar_congr hd hr (.inr (by rw [hp]; rfl))).trans h, sameRecord_refl ..⟩
  | none =>
    obtain ⟨hnone, ho, u, hu, hf⟩ := runScalar_next h
    obtain ⟨q, hu', hq⟩ := State.leftPart_slots (s.slots ⟨.scalar p l r, k⟩) hu fun h => State.slots_of_default h ..
    have hrun := runScalar_of_left (hd.trans hnone) ho (by rw [hr]; exact hu')
    rw [hp, State.finish_none] at hf hrun
    injection hf with hf
    subst hf
    exact ⟨q, hrun, hq⟩

theorem runScalar_refused_congr {e : Refusal} (h : runScalar p l k r' s = .refused e) :
    runScalar p l k r s = .refused e := by
  rcases delayed_cases l s with hx | ⟨c, x, rfl, hp⟩
  · exact (runScalar_congr hd hr hx).trans h
  · simp only [runScalar, State.leftPart, State.doXfer_of_delayed _ _ _ _ hp, hp, State.finish_none, hd] at h ⊢
    split at h
    · exact h
    · split at h
      · next ho => rw [if_pos ho]; exact h
      · cases h

end

theorem exec_scalar {i : Instr} {p : Bool} {l : SLeft} {r : SRight} {k : Word} (h : i.code = ⟨.scalar p l r, k⟩)
    (s : State) : exec i s = runScalar p l k r s := by
  rw [exec_eq_run, h]
  rfl

/-- Settles O41: such a shift has the effect and the checks of an omitted right part. -/
theorem shiftByZero : Obligations.ShiftByZero := by
  intro s p l k kind d a n i j hn hi hj
  have hnul : shiftIsNul n = true := by
    rw [shiftIsNul, Bool.or_eq_true, beq_iff_eq, beq_iff_eq]
    exact hn.imp (fun h => Fin.ext h) (fun h => Fin.ext h)
  have hd : scalarDefect l (.shift kind d a n) = scalarDefect l .nul := by
    simp [scalarDefect, SRight.defect, pairDefect, SRight.grWrites, hnul]
  have hr : s.rightPart (.shift kind d a n) = s.rightPart .nul := if_pos hnul
  rw [exec_scalar hi, exec_scalar hj]
  exact ⟨fun hx => runScalar_congr hd hr (.inl hx), fun t => runScalar_next_congr hd hr,
    fun e => runScalar_refused_congr hd hr⟩

end Sys2Proof.Machine
end

section
/-! PROOFS. The left part of a vector instruction: what its steps 4 to 8 move, and what `ftw`, `wtw` and the end of the
instruction do after them. -/

namespace Sys2Proof.Machine

open Sys2Proof

/-! ### Words moved, then weights (R631) -/

/-- Steps 4 to 8 of R631, but for the weights. -/
def State.vectorMoves (s : State) (count : Nat) (l : VLeft) (r : VRight) : State :=
  { s.vectorStore l.mem count with
    ram := s.ramAfter l.mem (s.vectorData l.mem count)
    afifo := s.afifoAfter l.mem r (s.vectorResults r count (s.vectorData l.mem count))
    wfifo := s.wfifoAfter l.mem (s.vectorData l.mem count) }

theorem State.vectorEffect_eq_doWeights (s : State) (count : Nat) (l : VLeft) (r : VRight) :
    s.vectorEffect count l r = (s.vectorMoves count l r).doWeights l.ftw l.wtw := rfl

/-- `u` is `s` but for memory, the address registers and the buffers. -/
def MovesOnly (s u : State) : Prop :=
  ∃ μ α ram afifo wfifo, u = { s with mem := μ, ars := α, ram := ram, afifo := afifo, wfifo := wfifo }

theorem MovesOnly.refl (s : State) : MovesOnly s s := ⟨_, _, _, _, _, rfl⟩

theorem State.movesOnly_vectorMoves (s : State) (count : Nat) (l : VLeft) (r : VRight) :
    MovesOnly s (s.vectorMoves count l r) := by
  obtain ⟨μ, α, h⟩ := State.vectorStore_eq s l.mem count
  unfold State.vectorMoves
  rw [h]
  exact ⟨_, _, _, _, _, rfl⟩

/-- The address registers after the moves (R211). -/
theorem State.ar_vectorMoves (s : State) (count : Nat) (l : VLeft) (r : VRight) (j : Ix) :
    (s.vectorMoves count l r).ar j = arAfter (l.mem.mode.bind fun v => v.upd count s) s j := by
  obtain ⟨μ, h, _⟩ := State.vectorStore_form s l.mem count
  calc (s.vectorMoves count l r).ar j = (s.vectorStore l.mem count).ar j := rfl
    _ = arAfter (l.mem.mode.bind fun v => v.upd count s) s j := by rw [h]; exact State.ar_applyUpd_after rfl _ j

/-- A left part that stores nothing leaves memory. -/
theorem State.vectorMoves_mem (s : State) (count : Nat) {l : VLeft} (r : VRight) (h : ∀ m c, l.mem ≠ .store m c) :
    (s.vectorMoves count l r).mem = s.mem := by
  obtain ⟨μ, hμ, hmem, _⟩ := State.vectorStore_form s l.mem count
  calc (s.vectorMoves count l r).mem = (s.vectorStore l.mem count).mem := rfl
    _ = s.mem := by rw [hμ, State.applyUpd_mem]; exact hmem h

/-- A left part that stores leaves the memory of its writes. -/
theorem State.vectorMoves_mem_store (s : State) (count : Nat) {l : VLeft} (r : VRight) {m : VMode} {c : Bool}
    (h : l.mem = .store m c) : (s.vectorMoves count l r).mem = (s.vectorWrite m 0 s.afifo s).mem := by
  obtain ⟨μ, hμ, _, hmem⟩ := State.vectorStore_form s l.mem count
  calc (s.vectorMoves count l r).mem = (s.vectorStore l.mem count).mem := rfl
    _ = (s.vectorWrite m 0 s.afifo s).mem := by rw [hμ, State.applyUpd_mem]; exact hmem m c h

/-! ### The end of a vector instruction -/

/-- The state after `ftw` and `wtw`, where the left part carries them, and the end of the instruction. -/
def State.weightsEnd (u : State) (f w : Bool) : State := ((u.doWeights f w).advance 1).clearFifos.tickFree

section
variable (u : State) (f w : Bool)

theorem State.weightsEnd_ram : (u.weightsEnd f w).ram = u.ram := by cases f <;> cases w <;> rfl
theorem State.weightsEnd_mem : (u.weightsEnd f w).mem = u.mem := by cases f <;> cases w <;> rfl
theorem State.ar_weightsEnd (j : Ix) : (u.weightsEnd f w).ar j = u.ar j := by cases f <;> cases w <;> rfl
theorem State.afifoHolds_weightsEnd : afifoHolds u.afifo (u.weightsEnd f w) := by cases f <;> cases w <;> rfl

end

/-- An omitted right part leaves afifo to the left part (R705). -/
theorem State.afifoHolds_noRight (s : State) (count : Nat) (l : VLeft) (f w : Bool) :
    afifoHolds (if l.mem.isStore then [] else s.afifo) ((s.vectorMoves count l .none).weightsEnd f w) :=
  State.afifoHolds_weightsEnd ..

/-- wfifo and the matrices (R680, R685). -/
theorem MovesOnly.weightsAfter {s u : State} (h : MovesOnly s u) (f w : Bool) :
    WeightsAfter f w u.wfifo s (u.weightsEnd f w) := by
  obtain ⟨_, _, _, _, _, rfl⟩ := h
  cases f <;> cases w <;> exact ⟨rfl, rfl, rfl, rfl, rfl⟩

/-- The frame of a vector instruction. -/
theorem MovesOnly.vectorFrame {s u : State} (h : MovesOnly s u) (f w : Bool) : VectorFrame s (u.weightsEnd f w) := by
  obtain ⟨_, _, _, _, _, rfl⟩ := h
  cases f <;> cases w <;> exact ⟨fun _ => rfl, rfl, rfl, rfl, .of_end rfl, rfl, rfl, rfl, rfl, rfl⟩

/-- A statement about a vector instruction follows from what its moves leave, once the weights have moved too. -/
theorem vectorRow_of_moves {i : Instr} {s : State} {p : Bool} {n : Rep} {l : VLeft} {r : VRight} {post : State → Prop}
    (hc : i.code = ⟨.vector p n l r, 0⟩)
    (h : vectorReady n l r s → post ((s.vectorMoves (n.val + 1) l r).weightsEnd l.ftw l.wtw)) :
    vectorRow i n l r s post := by
  intro hr hp
  refine ⟨_, ?_, h hr⟩
  calc exec i s = runVector p n l r s := by rw [exec_eq_run, hc]; rfl
    _ = (((s.vectorMoves (n.val + 1) l r).doWeights l.ftw l.wtw).advance 1).finish none := by
      rw [runVector_of_ready hr, hp, State.vectorEffect_eq_doWeights]
    _ = .next ((s.vectorMoves (n.val + 1) l r).weightsEnd l.ftw l.wtw) := State.finish_none _

end Sys2Proof.Machine
end

section
/-! PROOFS. The obligations on the vector left parts: loads, stores, the misuse of wfifo, and the empty parts. -/

namespace Sys2Proof.Machine

open Sys2Proof

/-! ### The vector loads (R640 to R651, R675 to R677) -/

/-- What a vector load leaves beside the right part `r`. -/
def VLoadPost (b : LBuf) (m : VMode) (f w : Bool) (n : Rep) (r : VRight) (s t : State) : Prop :=
  t.ram = (if b = .ram then words n fun k => s.read64 k (m.ea k s) else s.ram) ∧
  WeightsAfter f w (if b = .wfifo then s.wfifo ++ words n (fun k => s.read64 k (m.ea k s)) else s.wfifo) s t ∧
  (∀ j, t.ar j = arAfter (m.upd (n.val + 1) s) s j) ∧
  (r = .none → afifoHolds s.afifo t) ∧ sameMemory s t ∧ VectorFrame s t

theorem State.ramAfter_load (s : State) (b : LBuf) (m : VMode) (data : List Long) :
    s.ramAfter (.load b m) data = if b = .ram then data else s.ram := by
  cases b <;> rfl

theorem State.wfifoAfter_load (s : State) (b : LBuf) (m : VMode) (data : List Long) :
    s.wfifoAfter (.load b m) data = if b = .wfifo then s.wfifo ++ data else s.wfifo := by
  cases b <;> rfl

/-- A vector load beside a right part. -/
theorem vectorLoad_row {i : Instr} {s : State} {p f w : Bool} {n : Rep} {b : LBuf} {m : VMode} {r : VRight}
    (hc : i.code = ⟨.vector p n ⟨.load b m, f, w⟩ r, 0⟩) :
    vectorRow i n ⟨.load b m, f, w⟩ r s (VLoadPost b m f w n r s) := by
  refine vectorRow_of_moves hc fun _ => ?_
  have hu := s.movesOnly_vectorMoves (n.val + 1) ⟨.load b m, f, w⟩ r
  refine ⟨?ram, ?weights, fun j => ?ar, ?afifo, fun x => ?memory, hu.vectorFrame f w⟩
  case ram => exact (State.weightsEnd_ram ..).trans (s.ramAfter_load b m _)
  case weights =>
    have hweights := hu.weightsAfter f w
    have hwfifo : (s.vectorMoves (n.val + 1) ⟨.load b m, f, w⟩ r).wfifo = _ := s.wfifoAfter_load b m _
    rwa [hwfifo] at hweights
  case ar => exact (State.ar_weightsEnd ..).trans (s.ar_vectorMoves ..)
  case afifo =>
    rintro rfl
    exact s.afifoHolds_noRight ..
  case memory => rw [State.weightsEnd_mem, State.vectorMoves_mem s _ r fun _ _ h => VMem.noConfusion h]

/-- Settles O48: every row is a vector load into one buffer in one mode. -/
theorem vLoadRows : Obligations.VLoadRows := by
  intro s p f w n a b m r
  simp only [List.forall_mem_cons]
  exact ⟨vectorLoad_row rfl, vectorLoad_row rfl, vectorLoad_row rfl, vectorLoad_row rfl, vectorLoad_row rfl,
    vectorLoad_row rfl, vectorLoad_row rfl, vectorLoad_row rfl, vectorLoad_row rfl, vectorLoad_row rfl,
    vectorLoad_row rfl, vectorLoad_row rfl, vectorLoad_row rfl, by simp⟩

/-! ### The vector stores (R655, R656, R660 to R667) -/

/-- The words of two long words at even addresses are apart, if the long words are not the same. -/
theorem Word.apart_of_even {a b : Word} (ha : a.odd = false) (hb : b.odd = false) (h : b ≠ a) :
    (a ≠ b ∧ a ≠ b + 1) ∧ a + 1 ≠ b ∧ a + 1 ≠ b + 1 := by
  simp only [Word.odd_iff, decide_eq_false_iff_not] at ha hb
  refine ⟨⟨h.symm, ?_⟩, ?_, ?_⟩ <;> bv_omega

/-- A word outside MemMap takes nothing from a write (R230). -/
theorem State.word_write32_unbacked {s : State} {a : Word} (b v : Word) (h : s.backed a = false) :
    Memory.word (s.write32 b v).mem a = Memory.word s.mem a := by
  rw [State.word_write32, if_neg]
  rintro ⟨rfl, hb⟩
  exact Bool.false_ne_true (h.symm.trans hb)

theorem State.word_write64_unbacked {s : State} {a : Word} (b : Word) (v : Long) (h : s.backed a = false) :
    Memory.word (s.write64 b v).mem a = Memory.word s.mem a :=
  (State.word_write32_unbacked _ _ (by rw [State.backed_write32, h])).trans (State.word_write32_unbacked b v.lo h)

/-- What is stored after another write is stored. -/
theorem wordStored_of_write64 {a b v : Word} {x : Long} {s t : State} (h : wordStored a v (s.write64 b x) t) :
    wordStored a v s t := by
  rw [wordStored, State.backed_write64] at h
  rw [wordStored, h]
  cases hb : s.backed a with
  | true => rfl
  | false => exact State.word_write64_unbacked b x hb

/-- Of the words a vector store in an even mode writes, those of repetition `i` stay where no later repetition has the
same address. -/
theorem State.wordStored_vectorWrite (s : State) {m : VMode} (ho : m.odd s = false) (ws : List Long) (k i : Nat)
    (t : State) (hi : i < ws.length) (hlast : ∀ j, i < j → j < ws.length → m.ea (k + j) s ≠ m.ea (k + i) s) :
    wordStored (m.ea (k + i) s) (ws.getD i 0).lo t (s.vectorWrite m k ws t) ∧
    wordStored (m.ea (k + i) s + 1) (ws.getD i 0).hi t (s.vectorWrite m k ws t) := by
  induction ws generalizing k i t with
  | nil => exact absurd hi (Nat.not_lt_zero i)
  | cons x ws ih =>
    have hshift : ∀ j, k + 1 + j = k + (j + 1) := by omega
    cases i with
    | zero =>
      have hapart : ∀ j < ws.length, (m.ea k s ≠ m.ea (k + 1 + j) s ∧ m.ea k s ≠ m.ea (k + 1 + j) s + 1) ∧
          m.ea k s + 1 ≠ m.ea (k + 1 + j) s ∧ m.ea k s + 1 ≠ m.ea (k + 1 + j) s + 1 := by
        intro j hj
        have hne := hlast (j + 1) (Nat.succ_pos j) (Nat.succ_lt_succ hj)
        rw [← hshift] at hne
        exact Word.apart_of_even (VMode.ea_even m s ho _) (VMode.ea_even m s ho _) hne
      exact ⟨(State.word_vectorWrite_other _ _ _ _ _ _ fun j hj => (hapart j hj).1).trans
          (t.wordStored_write64_lo (m.ea k s) x),
        (State.word_vectorWrite_other _ _ _ _ _ _ fun j hj => (hapart j hj).2).trans
          (t.wordStored_write64_hi (m.ea k s) x)⟩
    | succ i =>
      have hih := ih (k + 1) i (t.write64 (m.ea k s) x) (Nat.lt_of_succ_lt_succ hi) fun j hij hj => by
        rw [hshift, hshift]
        exact hlast (j + 1) (Nat.succ_lt_succ hij) (Nat.succ_lt_succ hj)
      rw [hshift] at hih
      exact ⟨wordStored_of_write64 hih.1, wordStored_of_write64 hih.2⟩

/-- A vector store that passes its checks has as many words in afifo as repetitions (V3 of R715). -/
theorem State.length_afifo_of_store {s : State} {count : Nat} {m : VMode} {c : Bool} {r : VRight}
    (h : s.vectorError count (.store m c) r = false) : s.afifo.length = count := by
  simp only [State.vectorError, VMem.isStore, Bool.or_true, Bool.true_and, Bool.or_eq_false_iff] at h
  obtain ⟨⟨⟨⟨_, hlength⟩, _⟩, _⟩, _⟩ := h
  exact bne_eq_false_iff_eq.mp hlength

/-- What a vector store leaves beside the right part `r`. -/
def VStorePost (m : VMode) (c f w : Bool) (n : Rep) (r : VRight) (s t : State) : Prop :=
  (∀ k ≤ n.val, (∀ j, k < j → j ≤ n.val → m.ea j s ≠ m.ea k s) →
    wordStored (m.ea k s) (s.afifo.getD k 0).lo s t ∧ wordStored (m.ea k s + 1) (s.afifo.getD k 0).hi s t) ∧
  (∀ x, (∀ k ≤ n.val, ∀ d < 2, ∀ j < 4, x ≠ byteAddr (m.ea k s + BitVec.ofNat 32 d) j) →
    Memory.byteAt t.mem x = Memory.byteAt s.mem x) ∧
  t.ram = (if c then s.afifo else s.ram) ∧ WeightsAfter f w s.wfifo s t ∧
  (∀ j, t.ar j = arAfter (m.upd (n.val + 1) s) s j) ∧ (r = .none → afifoHolds [] t) ∧ VectorFrame s t

theorem State.ramAfter_store (s : State) (m : VMode) (c : Bool) (data : List Long) :
    s.ramAfter (.store m c) data = if c then s.afifo else s.ram := by
  cases c <;> rfl

/-- A vector store beside a right part. -/
theorem vectorStore_row {i : Instr} {s : State} {p f w c : Bool} {n : Rep} {m : VMode} {r : VRight}
    (hc : i.code = ⟨.vector p n ⟨.store m c, f, w⟩ r, 0⟩) :
    vectorRow i n ⟨.store m c, f, w⟩ r s (VStorePost m c f w n r s) := by
  refine vectorRow_of_moves hc fun ⟨_, _, herror, ho, _⟩ => ?_
  have hu := s.movesOnly_vectorMoves (n.val + 1) ⟨.store m c, f, w⟩ r
  have hlength : s.afifo.length = n.val + 1 := State.length_afifo_of_store herror
  have hmem : ((s.vectorMoves (n.val + 1) ⟨.store m c, f, w⟩ r).weightsEnd f w).mem =
      (s.vectorWrite m 0 s.afifo s).mem := (State.weightsEnd_mem ..).trans (s.vectorMoves_mem_store _ r rfl)
  refine ⟨fun k hk hlast => ?stored, fun x hx => ?rest, ?ram, hu.weightsAfter f w, fun j => ?ar, ?afifo,
    hu.vectorFrame f w⟩
  case stored =>
    have hstored := s.wordStored_vectorWrite ho s.afifo 0 k s (by omega) fun j hkj hj => by
      simpa only [Nat.zero_add] using hlast j hkj (by omega)
    rw [Nat.zero_add] at hstored
    exact ⟨wordStored_congr rfl rfl hmem.symm hstored.1, wordStored_congr rfl rfl hmem.symm hstored.2⟩
  case rest =>
    rw [hmem]
    refine s.byteAt_vectorWrite m s.afifo x 0 s fun k hk => ?_
    rw [Nat.zero_add]
    exact hx k (by omega)
  case ram => exact (State.weightsEnd_ram ..).trans (s.ramAfter_store m c _)
  case ar => exact (State.ar_weightsEnd ..).trans (s.ar_vectorMoves ..)
  case afifo =>
    rintro rfl
    exact s.afifoHolds_noRight ..

/-- Settles O49: every row is a vector store in one mode. -/
theorem vStoreRows : Obligations.VStoreRows := by
  intro s p f w n a m r
  simp only [List.forall_mem_cons]
  exact ⟨vectorStore_row rfl, vectorStore_row rfl, vectorStore_row rfl, vectorStore_row rfl, vectorStore_row rfl,
    vectorStore_row rfl, vectorStore_row rfl, vectorStore_row rfl, vectorStore_row rfl, vectorStore_row rfl, by simp⟩

/-! ### Blocking (R636, R845) -/

/-- The checks W1 and W2 of R636, with `taken` the number of words `ftw` takes. -/
theorem State.wfifoBlocks_iff (s : State) {loaded taken : Nat} {f : Bool} (ht : taken = if f then rows s.sb1 else 0) :
    s.wfifoBlocks loaded f = true ↔ s.wfifo.length + loaded < taken ∨ taken + 32 < s.wfifo.length + loaded := by
  subst ht
  cases f with
  | false => simp [State.wfifoBlocks]
  | true =>
    simp only [State.wfifoBlocks, Bool.or_eq_true, Bool.and_eq_true, decide_eq_true_eq, if_true, true_and]
    omega

theorem runVector_of_blocks {p : Bool} {n : Rep} {l : VLeft} {r : VRight} {s : State} (hd : vectorDefect n l r = none)
    (hw : s.wfifoBlocks (l.mem.wfifoLoad (n.val + 1)) l.ftw = true) : runVector p n l r s = .next s.block := by
  simp only [runVector, hd, hw, if_true]

/-- Settles O57: the checks of wfifo come before all others but the form, and a processor they block keeps its state. -/
theorem wfifoBlocked : Obligations.WfifoBlocked := by
  refine ⟨fun s i p n l r loaded taken hc hd hl ht hw => ?_, fun s p hw => ?_⟩
  · have hloaded : l.mem.wfifoLoad (n.val + 1) = loaded := by
      subst hl
      obtain ⟨_ | ⟨_ | _ | _, _⟩ | _, _, _⟩ := l <;> rfl
    have hblocks : s.wfifoBlocks (l.mem.wfifoLoad (n.val + 1)) l.ftw = true := by
      rw [hloaded]
      exact (s.wfifoBlocks_iff ht).mpr hw
    calc exec i s = runVector p n l r s := by rw [exec_eq_run, hc]; rfl
      _ = .next s.block := runVector_of_blocks hd hblocks
  · have hblocks : s.wfifoBlocks 0 true = true := (s.wfifoBlocks_iff rfl).mpr (.inl hw)
    constructor
    · exact (exec_eq_run ..).trans ((runBare_eq p .ftw s).trans (if_pos hblocks))
    · exact (exec_eq_run ..).trans ((runBare_eq p .ftwWtw s).trans (if_pos hblocks))

/-! ### Empty parts and bare instructions (R670, R680 to R690, R705) -/

/-- What a left part without a memory access leaves beside the right part `r`. -/
def VEmptyPost (f w : Bool) (r : VRight) (s t : State) : Prop :=
  t.ram = s.ram ∧ WeightsAfter f w s.wfifo s t ∧ (∀ j, t.ar j = s.ar j) ∧ (r = .none → afifoHolds s.afifo t) ∧
  sameMemory s t ∧ VectorFrame s t

/-- A left part without a memory access, beside a right part. -/
theorem vectorEmpty_row {i : Instr} {s : State} {p f w : Bool} {n : Rep} {r : VRight}
    (hc : i.code = ⟨.vector p n ⟨.none, f, w⟩ r, 0⟩) : vectorRow i n ⟨.none, f, w⟩ r s (VEmptyPost f w r s) := by
  refine vectorRow_of_moves hc fun _ => ?_
  have hu := s.movesOnly_vectorMoves (n.val + 1) ⟨.none, f, w⟩ r
  refine ⟨State.weightsEnd_ram .., hu.weightsAfter f w, State.ar_weightsEnd _ f w, ?afifo, fun x => ?memory,
    hu.vectorFrame f w⟩
  case afifo =>
    rintro rfl
    exact s.afifoHolds_noRight ..
  case memory => rw [State.weightsEnd_mem, State.vectorMoves_mem s _ r fun _ _ h => VMem.noConfusion h]

/-- An omitted right part, beside any left part. -/
theorem vectorNoRight_row {i : Instr} {s : State} {p : Bool} {n : Rep} {l : VLeft}
    (hc : i.code = ⟨.vector p n l .none, 0⟩) :
    vectorRow i n l .none s fun t => afifoHolds (if l.mem.isStore then [] else s.afifo) t ∧ VectorFrame s t :=
  vectorRow_of_moves hc fun _ =>
    ⟨s.afifoHolds_noRight .., (s.movesOnly_vectorMoves ..).vectorFrame l.ftw l.wtw⟩

/-- `ftw` does not block while wfifo has words enough, and no more than it holds. -/
theorem State.wfifoBlocks_ftw {s : State} (h : rows s.sb1 ≤ s.wfifo.length ∧ s.wfifo.length ≤ 32) :
    s.wfifoBlocks 0 true = false := by
  rw [← Bool.not_eq_true, s.wfifoBlocks_iff rfl, if_pos rfl]
  omega

/-- A vector instruction without a repetition count moves weights only. -/
theorem bare_row {i : Instr} {s : State} {p f w : Bool} {b : VBare} (hc : i.code = ⟨.bare p b, 0⟩)
    (hp : s.pending = none) (hb : s.bareBlocks b = false) (he : s.bareEffect b = s.doWeights f w) :
    completes i s fun t => WeightsAfter f w s.wfifo s t ∧ afifoHolds s.afifo t ∧ t.ram = s.ram ∧
      (∀ j, t.ar j = s.ar j) ∧ sameMemory s t ∧ VectorFrame s t := by
  have hexec : exec i s = .next (s.weightsEnd f w) :=
    calc exec i s = runBare p b s := by rw [exec_eq_run, hc]; rfl
      _ = ((s.doWeights f w).advance 1).finish none := by rw [runBare_eq, hb, he, hp]; rfl
      _ = .next (s.weightsEnd f w) := State.finish_none _
  have hs := MovesOnly.refl s
  exact ⟨_, hexec, hs.weightsAfter f w, State.afifoHolds_weightsEnd .., State.weightsEnd_ram ..,
    State.ar_weightsEnd _ f w, fun x => congrArg (Memory.byteAt · x) (State.weightsEnd_mem ..), hs.vectorFrame f w⟩

/-- Settles O50: every row moves nothing but weights, or has no right part, or is one of the instructions without a
count. -/
theorem vEmptyRows : Obligations.VEmptyRows := by
  refine ⟨fun s p w n r => ?_, fun s p n l => ?_, fun s p hp => ?_⟩
  · simp only [List.forall_mem_cons]
    exact ⟨vectorEmpty_row rfl, vectorEmpty_row rfl, vectorEmpty_row rfl, by simp⟩
  · have hrow := vectorNoRight_row (i := .vNoRight p n l) (s := s) rfl
    obtain ⟨m, f, w⟩ := l
    cases m <;> exact hrow
  · simp only [List.forall_mem_cons]
    exact ⟨fun _ => bare_row rfl hp rfl rfl, fun _ => bare_row rfl hp rfl rfl,
      fun h => bare_row rfl hp (State.wfifoBlocks_ftw (h trivial)) rfl,
      fun h => bare_row rfl hp (State.wfifoBlocks_ftw (h trivial)) rfl, by simp⟩

end Sys2Proof.Machine
end

section
/-! PROOFS. nb2, sb2 and the Active Matrix: `wtw` alone changes them (R685). -/

namespace Sys2Proof.Machine

open Sys2Proof

/-- What `wtw` writes. -/
@[simp] def State.activeFields (s : State) : Long × Word × List Long := (s.nb2, s.sb2, s.wa)

/-- A control transfer's action writes none of them. -/
theorem State.action_activeFields {s t : State} {kind : XferKind} {target ret : Word}
    (h : s.action kind target ret = .ok t) : t.activeFields = s.activeFields := by
  obtain ⟨_, _, _, _, _, rfl⟩ := State.action_form h
  rfl

/-- The end of an instruction writes none of them. -/
theorem State.finish_activeFields {u t : State} {q : Option Pending} (h : u.finish q = .next t) :
    t.activeFields = u.activeFields := by
  obtain ⟨v, hv, rfl⟩ := State.finish_next h
  rcases State.settle_ok hv with ⟨_, rfl⟩ | ⟨d, _, _, rfl⟩ | ⟨d, _, _, _, ha⟩ | ⟨d, _, _, _, rfl⟩
  · rfl
  · rfl
  · exact (State.action_activeFields ha :)
  · rfl

/-- No left part of a scalar instruction writes them: they are no destination (R134). -/
theorem State.leftPart_activeFields {s T u : State} {l : SLeft} {k : Word} {n : Nat} (h : s.leftPart T l k n = .ok u) :
    u.activeFields = T.activeFields := by
  have hload : ∀ {d m}, s.doLoad T d m k = .ok u → u.activeFields = T.activeFields := by
    intro d m h
    obtain ⟨v, _, rfl⟩ := State.doLoad_ok h
    simp
  have hstore : ∀ {d m}, s.doStore T m d k = .ok u → u.activeFields = T.activeFields := by
    intro d m h
    obtain ⟨v, hv, rfl⟩ := State.doStore_ok h
    rcases State.store_ok hv with ⟨_, _, rfl⟩ | ⟨_, rfl⟩ <;> simp
  cases l with
  | load d m => exact hload h
  | pop d => exact hload h
  | store m r => exact hstore h
  | push r => exact hstore h
  | copy d r => injection h with h; subst h; simp
  | setConst d => injection h with h; subst h; simp
  | xfer c d x =>
    rcases State.doXfer_ok h with ⟨_, _, rfl⟩ | ⟨_, _, rfl⟩ | ⟨_, _, _, h⟩ | ⟨_, _, _, rfl⟩
    · rfl
    · rfl
    · exact State.action_activeFields h
    · rfl
  | _ => injection h with h; subst h; rfl

/-- Without `wtw` a vector instruction's effect writes none of them. -/
theorem State.vectorEffect_activeFields (s : State) (count : Nat) {l : VLeft} (r : VRight) (h : l.wtw = false) :
    (s.vectorEffect count l r).activeFields = s.activeFields := by
  obtain ⟨_, _, _, _, _, hu⟩ := s.movesOnly_vectorMoves count l r
  rw [State.vectorEffect_eq_doWeights, hu, h]
  cases l.ftw <;> rfl

/-- Settles O14: no part of a scalar instruction writes them, and a vector instruction does with `wtw` only. -/
theorem wtwOnly : Obligations.WtwOnly := by
  intro i s t h hw
  suffices hactive : t.activeFields = s.activeFields by
    simpa only [State.activeFields, Prod.mk.injEq] using hactive
  cases hl : i.code.low with
  | scalar p l r =>
    obtain ⟨_, u, hu, hf⟩ := exec_scalar_next h hl
    calc t.activeFields = u.activeFields := State.finish_activeFields hf
      _ = ((s.rightPart r).advance l.len).activeFields := State.leftPart_activeFields hu
      _ = s.activeFields := by simp
  | vector p n l r =>
    rw [hl] at hw
    rw [exec_eq_run, run, hl] at h
    obtain ⟨_, ⟨_, rfl⟩ | ⟨_, ⟨_, hf⟩ | ⟨_, _, _, hf⟩⟩⟩ := runVector_next h
    · rfl
    · exact (State.finish_activeFields hf :)
    · calc t.activeFields = ((s.vectorEffect (n.val + 1) l r).advance 1).activeFields := State.finish_activeFields hf
        _ = s.activeFields := s.vectorEffect_activeFields _ r hw
  | bare p b =>
    rw [hl] at hw
    rw [exec_eq_run, run, hl] at h
    change runBare p b s = .next t at h
    rw [runBare_eq] at h
    split at h
    · injection h with h; subst h; rfl
    · calc t.activeFields = ((s.bareEffect b).advance 1).activeFields := State.finish_activeFields h
        _ = s.activeFields := by rcases hw with rfl | rfl <;> rfl

end Sys2Proof.Machine
end

section
/-! PROOFS. What an operation of the Vector ALU or the Active Matrix leaves in each element of SplitNB. -/

namespace Sys2Proof.Machine

open Sys2Proof

theorem splitNB_tiles (nb : Long) : Tiles (splitNB nb) 0 64 := elements_tiles _

/-! ### Addition and subtraction (R700, R703) -/

section
variable {nb a b : Long} {e : Nat × Nat} (he : e ∈ splitNB nb)
include he

theorem field_addNB : field (addNB nb a b) e = (field a e + field b e) % 2 ^ e.2 :=
  field_packElements (splitNB_tiles nb) _ he

/-- The range of the element that `subNB` adds, to stay a natural number, does not count modulo that range. -/
theorem field_subNB : (field (subNB nb a b) e : Int) = ((field a e : Int) - field b e) % 2 ^ e.2 := by
  have hle : field b e ≤ 2 ^ e.2 := (field_lt b e).le
  calc (field (subNB nb a b) e : Int)
      = ((field a e + (2 ^ e.2 - field b e) : Nat) : Int) % 2 ^ e.2 := by
        rw [subNB, field_packElements (splitNB_tiles nb) _ he]; push_cast; rfl
    _ = ((field a e : Int) - field b e + 2 ^ e.2) % 2 ^ e.2 := by
        rw [Nat.cast_add, Nat.cast_sub hle]; push_cast; congr 1; ring
    _ = ((field a e : Int) - field b e) % 2 ^ e.2 := Int.add_emod_right ..

theorem field_oneDevice : field (oneDevice nb) e = 1 := by
  have hwidth : 0 < e.2 := ((splitNB_tiles nb).within e he).2.1
  rw [oneDevice, field_packElements (splitNB_tiles nb) _ he]
  exact Nat.mod_eq_of_lt (Nat.one_lt_two_pow hwidth.ne')

end

/-- Settles O44, by the value each of the three words holds in an element. -/
theorem addSubElements : Obligations.AddSubElements :=
  fun _ _ _ _ he => ⟨field_addNB he, field_subNB he, field_oneDevice he⟩

/-! ### The weighted accumulation (R760) -/

theorem weightSum_eq_sum_zipWith (x : Long) (col : Nat × Nat) (es : List (Nat × Nat)) (ws : List Long) :
    weightSum x col es ws = (List.zipWith (fun row w => signedField x row * (field w col : Int)) es ws).sum := by
  induction es generalizing ws with
  | nil => rfl
  | cons e es ih =>
    cases ws with
    | nil => rfl
    | cons w ws => rw [weightSum, ih, List.zipWith_cons_cons, List.sum_cons]

/-- A word packed from integers holds in each of its tiles the integer modulo the tile's range. -/
theorem field_packElements_emod {es : List (Nat × Nat)} (h : Tiles es 0 64) (f : Nat × Nat → Int) {e : Nat × Nat}
    (he : e ∈ es) : (field (packElements es fun e => (f e % 2 ^ e.2).toNat) e : Int) = f e % 2 ^ e.2 := by
  have hnonneg : 0 ≤ f e % 2 ^ e.2 := Int.emod_nonneg _ (by positivity)
  rw [field_packElements h _ he]
  push_cast
  rw [Int.toNat_of_nonneg hnonneg, Int.emod_emod_of_dvd _ dvd_rfl]

/-- Settles O46: a column is packed from an integer, and that integer is the sum over the rows. -/
theorem weightedElements : Obligations.WeightedElements := by
  intro nb sb wa x y col hcol
  rw [weighted, field_packElements_emod (splitNB_tiles nb) _ hcol, weightSum_eq_sum_zipWith]

end Sys2Proof.Machine
end

section
/-! PROOFS. The right part of a vector instruction: the words each kind of operation leaves in afifo, and the
obligations on the rows of each kind. -/

namespace Sys2Proof.Machine

open Sys2Proof

/-! ### The words of a right part (R701) -/

/-- What a right part that is not omitted leaves: word `k` of afifo is `z k`. -/
def VRightPost (n : Rep) (z : Nat → Long) (s t : State) : Prop := afifoHolds (words n z) t ∧ VectorFrame s t

/-- The long words that enter the data path at repetition `k`, those of `operand`. -/
def State.lane (s : State) (l : VLeft) (n : Rep) (k : Nat) : Lane :=
  ⟨(s.vectorData l.mem (n.val + 1)).getD k 0, s.ram.getD k 0, s.afifo.getD k 0⟩

/-- A right part beside a left part leaves the words it computes from the lanes. -/
theorem vectorRight_row {i : Instr} {s : State} {p : Bool} {n : Rep} {l : VLeft} {r : VRight} {z : Nat → Long}
    (hc : i.code = ⟨.vector p n l r, 0⟩) (hr : (r != .none) = true) (hz : ∀ k, s.vop r k (s.lane l n k) = z k) :
    vectorRow i n l r s (VRightPost n z s) := by
  refine vectorRow_of_moves hc fun _ => ⟨?_, (s.movesOnly_vectorMoves ..).vectorFrame l.ftw l.wtw⟩
  have hafifo : (s.vectorMoves (n.val + 1) l r).afifo = words n z :=
    calc (s.vectorMoves (n.val + 1) l r).afifo
        = s.vectorResults r (n.val + 1) (s.vectorData l.mem (n.val + 1)) := if_pos hr
      _ = words n z := List.map_congr_left fun k _ => hz k
  rw [← hafifo]
  exact State.afifoHolds_weightsEnd ..

/-- `Ror1` rotates (R702). -/
theorem ror1_eq_rotateRight (v : Long) : ror1 v = v.rotateRight 1 := by
  ext i hi
  rw [ror1, BitVec.getElem_append, BitVec.getElem_rotateRight]
  by_cases h : i < 63
  · simpa [h] using BitVec.getLsbD_eq_getElem (show 1 + i < 64 by omega)
  · simp [show i = 63 by omega]

/-- The shifter: a rotation where `shift` stands. -/
def shiftIf (on : Bool) (v : Long) : Long := if on then v.rotateRight 1 else v

theorem ite_ror1_eq_shiftIf (on : Bool) (v : Long) : (if on then ror1 v else v) = shiftIf on v := by
  rw [ror1_eq_rotateRight, shiftIf]

section
variable {i : Instr} {s : State} {p sh ax ay : Bool} {n : Rep} {l : VLeft} {b : Buf} {x y : VSrc}

/-- A logical operation, its result written as `z` (R720 to R730, R771 to R776). -/
theorem vectorLogic_row {op : VLogOp} {nx ny : Bool} {z : Nat → Long}
    (hc : i.code = ⟨.vector p n l (.logic op nx ny ⟨ax, x⟩ ⟨ay, y⟩), 0⟩)
    (hz : ∀ k, logicOp op (notIf nx (activateIf ax .threshold s.f1cr (operand s l n x k)))
      (notIf ny (activateIf ay .threshold s.f2cr (operand s l n y k))) = z k) :
    vectorRow i n l (.logic op nx ny ⟨ax, x⟩ ⟨ay, y⟩) s (VRightPost n z s) :=
  vectorRight_row hc rfl hz

/-- An arithmetic operation (R735 to R741, R781 to R783). -/
theorem vectorArith_row {sub : Bool} (hc : i.code = ⟨.vector p n l (.arith sub ⟨ax, x⟩ ⟨ay, y⟩), 0⟩) :
    vectorRow i n l (.arith sub ⟨ax, x⟩ ⟨ay, y⟩) s (VRightPost n (fun k =>
      (if sub then subNB else addNB) s.nb2 (activateIf ax .saturate s.f1cr (operand s l n x k))
        (activateIf ay .saturate s.f2cr (operand s l n y k))) s) :=
  vectorRight_row hc rfl fun _ => by cases sub <;> rfl

/-- A mask operation (R750, R751, R777 to R780). -/
theorem vectorMask_row (hc : i.code = ⟨.vector p n l (.mask b sh ⟨ax, x⟩ ⟨ay, y⟩), 0⟩) :
    vectorRow i n l (.mask b sh ⟨ax, x⟩ ⟨ay, y⟩) s (VRightPost n (fun k =>
      shiftIf sh (activateIf ax .threshold s.f1cr (operand s l n x k &&& operand s l n (.buf b) k)) |||
        activateIf ay .threshold s.f2cr (operand s l n y k &&& ~~~operand s l n (.buf b) k)) s) :=
  vectorRight_row hc rfl fun _ => congrArg (· ||| _) (ite_ror1_eq_shiftIf ..)

/-- A weighted accumulation without a mask (R760, R761, R764). -/
theorem vectorSum_row (hc : i.code = ⟨.vector p n l (.vsum none sh ⟨ax, x⟩ ⟨ay, y⟩), 0⟩) :
    vectorRow i n l (.vsum none sh ⟨ax, x⟩ ⟨ay, y⟩) s (VRightPost n (fun k =>
      weighted s.nb2 s.sb2 s.wa (shiftIf sh (activateIf ax .saturate s.f1cr (operand s l n x k)))
        (activateIf ay .saturate s.f2cr (operand s l n y k))) s) :=
  vectorRight_row hc rfl fun _ => congrArg (weighted s.nb2 s.sb2 s.wa · _) (ite_ror1_eq_shiftIf ..)

/-- A weighted accumulation with a mask (R763, R764). -/
theorem vectorSumMask_row (hc : i.code = ⟨.vector p n l (.vsum (some b) sh ⟨ax, x⟩ ⟨ay, y⟩), 0⟩) :
    vectorRow i n l (.vsum (some b) sh ⟨ax, x⟩ ⟨ay, y⟩) s (VRightPost n (fun k =>
      weighted s.nb2 s.sb2 s.wa
        (shiftIf sh (activateIf ax .saturate s.f1cr (operand s l n x k &&& operand s l n (.buf b) k)))
        (activateIf ay .saturate s.f2cr (operand s l n y k &&& ~~~operand s l n (.buf b) k))) s) :=
  vectorRight_row hc rfl fun _ => congrArg (weighted s.nb2 s.sb2 s.wa · _) (ite_ror1_eq_shiftIf ..)

end

/-! ### The obligations on the rows -/

/-- Settles O51: every row is a logical operation, but `vfalse` and `vtrue`, which fill. The rows with two complements
and `not X` are written by De Morgan's laws and the like. -/
theorem vLogicRows : Obligations.VLogicRows := by
  rintro s p n l x y _ _ TX TY rfl rfl hTX hTY
  obtain rfl := funext hTX
  obtain rfl := funext hTY
  simp only [List.forall_mem_cons]
  exact ⟨vectorLogic_row rfl fun _ => rfl, vectorLogic_row rfl fun _ => rfl, vectorLogic_row rfl fun _ => rfl,
    vectorLogic_row rfl fun _ => BitVec.or_zero, vectorLogic_row rfl fun _ => rfl, vectorLogic_row rfl fun _ => rfl,
    vectorLogic_row rfl fun _ => BitVec.not_and.symm, vectorLogic_row rfl fun _ => rfl,
    vectorLogic_row rfl fun _ => rfl, vectorLogic_row rfl fun _ => BitVec.not_or.symm,
    vectorLogic_row rfl fun _ => BitVec.not_xor_left.symm, vectorRight_row rfl rfl fun _ => rfl,
    vectorRight_row rfl rfl fun _ => rfl, vectorLogic_row rfl fun _ => rfl, vectorLogic_row rfl fun _ => rfl,
    vectorLogic_row rfl fun _ => rfl, vectorLogic_row rfl fun _ => rfl, vectorLogic_row rfl fun _ => rfl,
    vectorLogic_row rfl fun _ => BitVec.not_or.symm, by simp⟩

/-- Settles O52: every row is an arithmetic operation on buffers or devices. -/
theorem vArithRows : Obligations.VArithRows := by
  rintro s p n l x y _ _ SX SY rfl rfl hSX hSY
  obtain rfl := funext hSX
  obtain rfl := funext hSY
  simp only [List.forall_mem_cons]
  exact ⟨vectorArith_row rfl, vectorArith_row rfl, vectorArith_row rfl, vectorArith_row rfl, vectorArith_row rfl,
    vectorArith_row rfl, vectorArith_row rfl, vectorArith_row rfl, vectorArith_row rfl, vectorArith_row rfl, by simp⟩

/-- Settles O53: every row is a mask operation. -/
theorem vMaskRows : Obligations.VMaskRows := by
  rintro s p n l b x y _ X Y TX TY rfl hX hY hTX hTY
  obtain rfl := funext hX
  obtain rfl := funext hY
  obtain rfl := funext hTX
  obtain rfl := funext hTY
  simp only [List.forall_mem_cons]
  exact ⟨vectorMask_row rfl, vectorMask_row rfl, vectorMask_row rfl, vectorMask_row rfl, vectorMask_row rfl,
    vectorMask_row rfl, by simp⟩

/-- Settles O54: every row is a weighted accumulation, with a mask or without; the form with `shift` can be either. -/
theorem vSumRows : Obligations.VSumRows := by
  rintro s p n l b c x y _ _ _ X1 Y1 X2 Y2 rfl rfl rfl hX1 hY1 hX2 hY2
  obtain rfl := funext hX1
  obtain rfl := funext hY1
  obtain rfl := funext hX2
  obtain rfl := funext hY2
  simp only [List.forall_mem_cons]
  refine ⟨vectorSum_row rfl, vectorSum_row rfl, vectorSumMask_row rfl, ?shift, vectorSum_row rfl, vectorSum_row rfl,
    vectorSumMask_row rfl, vectorSum_row rfl, by simp⟩
  cases c with
  | none => exact vectorSum_row rfl
  | some m => exact vectorSumMask_row rfl

/-- The bits of the image of sb in `store vregs` (R790). -/
theorem getLsbD_sbImage (sb1 sb2 : Word) {j : Nat} (h : j < 32) :
    (sbImage sb1 sb2).getLsbD (2 * j + 1) = sb1.getLsbD j ∧ (sbImage sb1 sb2).getLsbD (2 * j) = sb2.getLsbD j := by
  have hodd : (2 * j + 1) % 2 = 1 ∧ (2 * j + 1) / 2 = j := by omega
  simp [sbImage, hodd, show 2 * j + 1 < 64 by omega, show 2 * j < 64 by omega]

/-- Settles O55: the rows are the five kinds of operation in general; `store vregs` leaves its five words. -/
theorem vOtherRows : Obligations.VOtherRows := by
  constructor
  case left =>
    rintro s p nx ny sub sh ax ay n l op b x y _ _ _ rfl rfl rfl
    simp only [List.forall_mem_cons]
    refine ⟨vectorLogic_row rfl fun k => ?logic, ?arith, vectorMask_row rfl, vectorSumMask_row rfl, vectorSum_row rfl,
      by simp⟩
    case logic => cases op <;> rfl
    case arith => cases sub <;> exact vectorArith_row rfl
  case right =>
    intro s p l hr hp
    obtain ⟨t, ht, hafifo, hframe⟩ := vectorRight_row (i := .storeVregs p 4 l) rfl rfl (fun _ => rfl) hr hp
    exact ⟨t, ht, hframe, sbImage s.sb1 s.sb2, hafifo, fun _ hj => getLsbD_sbImage s.sb1 s.sb2 hj⟩

/-! ### Incorrect vector instructions (R715, R803) -/

theorem VMem.isLoad_iff (m : VMem) : m.isLoad = true ↔ ∃ b v, m = .load b v := by
  cases m <;> simp [VMem.isLoad]

theorem VMem.isStore_iff (m : VMem) : m.isStore = true ↔ ∃ v c, m = .store v c := by
  cases m <;> simp [VMem.isStore]

theorem VMem.writesRam_iff (m : VMem) : m.writesRam = true ↔ (∃ v, m = .load .ram v) ∨ ∃ v, m = .store v true := by
  cases m <;> simp [VMem.writesRam]

/-- The checks V1 to V6 of D25, one to a line; afifo is read by the right part or stored by the left. -/
theorem State.vectorError_iff (s : State) (count : Nat) (m : VMem) (r : VRight) :
    s.vectorError count m r = true ↔
      (r.reads .data = true ∧ ¬ m.isLoad = true) ∨
      ((r.reads .afifo = true ∨ m.isStore = true) ∧ s.afifo.length = 0) ∨
      ((r.reads .afifo = true ∨ m.isStore = true) ∧ s.afifo.length ≠ count) ∨
      (r ≠ .none ∧ s.afifo.length ≠ 0 ∧ ¬ (r.reads .afifo = true ∨ m.isStore = true)) ∨
      (r.reads .ram = true ∧ (s.ram.length = 0 ∨ s.ram.length ≠ count)) ∨
      (r.reads .ram = true ∧ m.writesRam = true) := by
  simp only [State.vectorError, Bool.or_eq_true, Bool.and_eq_true, bne_iff_ne, List.isEmpty_iff_length_eq_zero,
    Bool.not_eq_true', ← Bool.not_eq_true, or_assoc, and_assoc]
  rw [and_comm (a := m.writesRam = true)]

/-- Settles O56: the checks are V1 to V6, and an instruction that fails one raises VPR and ends. -/
theorem vectorChecks : Obligations.VectorChecks := by
  intro s i p n l r readsA hc hA
  refine ⟨?checks, fun hd hw he hp => ?effect⟩
  case checks => rw [State.vectorError_iff, VMem.isLoad_iff, VMem.isStore_iff, VMem.writesRam_iff, ← hA]
  case effect =>
    have hexec : exec i s = .next ((s.raise 6).advance 1).clearFifos.tickFree :=
      calc exec i s = runVector p n l r s := by rw [exec_eq_run, hc]; rfl
        _ = ((s.raise 6).advance 1).finish none := by rw [runVector_of_error hd hw he, hp]
        _ = .next ((s.raise 6).advance 1).clearFifos.tickFree := State.finish_none _
    exact ⟨_, hexec, rfl, rfl, rfl, fun _ => rfl, fun _ => rfl, fun _ => rfl, .of_end rfl, .of_end rfl⟩

end Sys2Proof.Machine
end

section
/-! PROOFS. Interrupt requests: what clears none of them, and the obligation on a pending request (R811). What the steps
of the other agents write is said here once, for this obligation and for the one on a blocked processor. -/

namespace Sys2Proof.Machine

open Sys2Proof

/-- No request is cleared from `s` to `t`. -/
def KeepsRequests (s t : State) : Prop := ∀ n, s.ireq.getLsbD n = true → t.ireq.getLsbD n = true

namespace KeepsRequests

variable {s t u : State}

theorem of_eq (h : t.ireq = s.ireq) : KeepsRequests s t := fun n hn => by rwa [h]

theorem trans (h : KeepsRequests s t) (g : KeepsRequests t u) : KeepsRequests s u := fun n hn => g n (h n hn)

/-- Raising a request clears none (R811). -/
theorem raise (s : State) (k : Fin 9) : KeepsRequests s (s.raise k) := fun n hn => by simp [hn]

end KeepsRequests

/-! ### Instructions -/

/-- The end of an instruction makes and clears no request. -/
theorem State.finish_ireq {u t : State} {q : Option Pending} (h : u.finish q = .next t) : t.ireq = u.ireq := by
  obtain ⟨v, hv, rfl⟩ := State.finish_next h
  rcases State.settle_ok hv with ⟨_, rfl⟩ | ⟨d, _, _, rfl⟩ | ⟨d, _, _, _, ha⟩ | ⟨d, _, _, _, rfl⟩
  · rfl
  · rfl
  · obtain ⟨_, _, _, _, _, rfl⟩ := State.action_form ha
    rfl
  · rfl

theorem KeepsRequests.rightPart (s : State) (r : SRight) : KeepsRequests s (s.rightPart r) := by
  rcases State.rightPart_ireq s r with h | h
  · exact .of_eq h
  · exact (KeepsRequests.raise s 7).trans (.of_eq h)

/-- No instruction clears a request (R811). -/
theorem exec_keepsRequests {i : Instr} {s t : State} (h : exec i s = .next t) : KeepsRequests s t := by
  cases hl : i.code.low with
  | scalar p l r =>
    obtain ⟨_, u, hu, hf⟩ := exec_scalar_next h hl
    have hend : t.ireq = (s.rightPart r).ireq := (State.finish_ireq hf).trans (State.leftPart_ireq hu :)
    exact (KeepsRequests.rightPart s r).trans (.of_eq hend)
  | vector p n l r =>
    rw [exec_eq_run, run, hl] at h
    obtain ⟨_, ⟨_, rfl⟩ | ⟨_, ⟨_, hf⟩ | ⟨_, _, _, hf⟩⟩⟩ := runVector_next h
    · exact .of_eq rfl
    · exact (KeepsRequests.raise s 6).trans (.of_eq (State.finish_ireq hf :))
    · obtain ⟨_, _, _, _, _, e⟩ := State.vectorEffect_eq s (n.val + 1) l r
      exact .of_eq ((State.finish_ireq hf).trans (by rw [e]; rfl))
  | bare p b =>
    rw [exec_eq_run, run, hl] at h
    rcases runBare_next h with ⟨_, _, rfl⟩ | ⟨u, hu, hf⟩
    · exact .of_eq rfl
    · refine .of_eq ((State.finish_ireq hf).trans ?_)
      rcases hu with rfl | rfl | ⟨_, rfl | rfl⟩ <;> rfl

/-! ### The other agents (R104 to R108, R116, R804) -/

/-- What the other agents may write: `t` is `s` but for memory, the ports, the timers, the note of DMA activity and the
requests, none of which is cleared. -/
def ByAgent (s t : State) : Prop :=
  (∃ mem port0 port1 timer0 timer1 ireq dmaSeen, t = { s with
    mem := mem, port0 := port0, port1 := port1, timer0 := timer0, timer1 := timer1, ireq := ireq, dmaSeen := dmaSeen }) ∧
  KeepsRequests s t

namespace ByAgent

variable {s t u : State}

theorem refl (s : State) : ByAgent s s := ⟨⟨_, _, _, _, _, _, _, rfl⟩, .of_eq rfl⟩

theorem trans (h : ByAgent s t) (g : ByAgent t u) : ByAgent s u := by
  obtain ⟨⟨_, _, _, _, _, _, _, rfl⟩, hr⟩ := h
  obtain ⟨⟨_, _, _, _, _, _, _, rfl⟩, gr⟩ := g
  exact ⟨⟨_, _, _, _, _, _, _, rfl⟩, hr.trans gr⟩

theorem raise (s : State) (k : Fin 9) : ByAgent s (s.raise k) := ⟨⟨_, _, _, _, _, _, _, rfl⟩, .raise s k⟩

theorem setPort (s : State) (p : Unit2) (q : Port) : ByAgent s (s.setPort p q) := by
  cases p <;> exact ⟨⟨_, _, _, _, _, _, _, rfl⟩, .of_eq rfl⟩

theorem setTimer (s : State) (p : Unit2) (q : Timer) : ByAgent s (s.setTimer p q) := by
  cases p <;> exact ⟨⟨_, _, _, _, _, _, _, rfl⟩, .of_eq rfl⟩

theorem noteDma (s : State) : ByAgent s { s with dmaSeen := true } := ⟨⟨_, _, _, _, _, _, _, rfl⟩, .of_eq rfl⟩

theorem write64 (s : State) (a : Word) (v : Long) : ByAgent s (s.write64 a v) := by
  obtain ⟨μ, h⟩ := s.write64_form a v
  rw [h]
  exact ⟨⟨_, _, _, _, _, _, _, rfl⟩, .of_eq rfl⟩

theorem ticked (s : State) (p : Unit2) (a b : Bool) : ByAgent s (s.ticked p a b) := by
  refine (setTimer s p ((s.timer p).ticked a b)).trans ?_
  unfold State.ticked State.raiseIf
  split
  · exact .raise ..
  · exact .refl _

theorem channelStep (s : State) (p : Unit2) (q : Port) (n : Word) (k : Fin 9) :
    ByAgent s (s.channelStep p q n k) := by
  unfold State.channelStep
  split
  · exact ((setPort s p q).trans (.raise _ k)).trans (.noteDma _)
  · exact (setPort s p q).trans (.noteDma _)

theorem dmaInput {p : Unit2} (h : s.dmaInput p = .ok t) : ByAgent s t := by
  rcases State.dmaInput_ok h with rfl | ⟨w, rest, rfl⟩ | ⟨w, rest, rfl⟩
  · exact .refl _
  · exact (write64 ..).trans (.channelStep ..)
  · exact (setPort ..).trans (.noteDma _)

theorem dmaOutput {p : Unit2} (h : s.dmaOutput p = .ok t) : ByAgent s t := by
  rcases State.dmaOutput_ok h with rfl | ⟨v, rfl⟩
  · exact .refl _
  · exact .channelStep ..

/-- What an event that is no RESET can do. -/
theorem event {e : Input} (h : s.event e = .ok t) (he : e ≠ .reset) : ByAgent s t := by
  cases e with
  | core => injection h with h; subst h; exact .refl _
  | timerClock =>
    rw [State.event_timerClock] at h
    injection h with h; subst h
    exact (ticked ..).trans (.ticked ..)
  | portOffer p w => injection h with h; subst h; exact .setPort ..
  | dmaIn p => exact .dmaInput h
  | dmaOut p => exact .dmaOutput h
  | extInt => injection h with h; subst h; exact .raise s 5
  | reset => exact absurd rfl he

end ByAgent

/-- A step that is no RESET is, but for the schedule, a step of the processor or that of another agent (R221). -/
theorem step_next_of_not_reset {s t : State} (h : step s = .next t) (hr : ∀ rest, s.inputs ≠ .reset :: rest) :
    ∃ rest, coreStep { s with inputs := rest } = .next t ∨
      ∃ u, ByAgent { s with inputs := rest } u ∧ t = u.clearFifos.tickFree := by
  rcases step_next h with h | ⟨rest, h⟩ | ⟨e, rest, u, hin, hu, rfl⟩
  · exact ⟨s.inputs, .inl h⟩
  · exact ⟨rest, .inl h⟩
  · have he : e ≠ .reset := by rintro rfl; exact hr rest hin
    exact ⟨rest, .inr ⟨u, .event hu he, rfl⟩⟩

/-! ### Interrupt entry (R812, R830) -/

/-- Interrupt entry clears the request taken and no other (R830). -/
theorem getLsbD_clearRequest (x : BitVec 9) (k : Fin 9) (n : Nat) :
    (x &&& ~~~BitVec.twoPow 9 k).getLsbD n = (x.getLsbD n && !decide (n = k.val)) := by
  by_cases hn : n < 9
  · simp [hn]
  · simp [BitVec.getLsbD_of_ge x n (by omega)]

theorem State.enabledReq_iff (s : State) (k : Fin 9) :
    s.enabledReq k = true ↔ s.ireq.getLsbD k = true ∧ s.psw (k + 5) = false := by
  simp [State.enabledReq]

/-- The request of an interrupt that is taken is enabled, and no delayed transfer is pending. -/
theorem State.enabled_of_interruptNow {s : State} {k : Fin 9} (h : s.interruptNow = some k) :
    s.pending = none ∧ s.ireq.getLsbD k = true ∧ s.psw (k + 5) = false := by
  unfold State.interruptNow at h
  split at h
  · cases h
  · next hp => exact ⟨by simpa using hp, (s.enabledReq_iff k).mp (List.find?_some h)⟩

/-- The step that takes an interrupt (R830). -/
theorem State.interruptStep_next {s t : State} {k : Fin 9} (h : s.interruptStep k = .next t) :
    ∃ u, s.takeInterrupt k = .ok u ∧ t = u.clearFifos := by
  unfold State.interruptStep at h
  split at h
  · cases h
  · next u hu => exact ⟨u, hu, by injection h with h; exact h.symm⟩

/-- After a step of the processor a request is still pending, or its handler has been entered. -/
theorem coreStep_requests {s t : State} (h : coreStep s = .next t) {n : Nat} (hn : s.ireq.getLsbD n = true) :
    t.ireq.getLsbD n = true ∨
      ∃ k : Fin 9, k.val = n ∧ s.psw (n + 5) = false ∧ s.pending = none ∧ t.ipc = Config.intVector k := by
  rcases coreStep_next h with ⟨_, rfl⟩ | ⟨_, k, hk, h⟩ | ⟨_, _, i, _, h⟩
  · exact .inl hn
  · obtain ⟨hpending, _, hmask⟩ := State.enabled_of_interruptNow hk
    obtain ⟨u, hu, rfl⟩ := State.interruptStep_next h
    obtain ⟨_, rfl⟩ := State.takeInterrupt_ok hu
    by_cases hkn : k.val = n
    · exact .inr ⟨k, hkn, hkn ▸ hmask, hpending, rfl⟩
    · have hother : (s.ireq &&& ~~~BitVec.twoPow 9 k).getLsbD n = true := by
        rw [getLsbD_clearRequest, hn, decide_eq_false (Ne.symm hkn)]
        rfl
      exact .inl hother
  · exact .inl (exec_keepsRequests h n hn)

/-- Settles O15: no instruction and no agent clears a request; interrupt entry clears the one whose handler it enters. -/
theorem requestsKept : Obligations.RequestsKept := by
  intro s t h hr n hn
  obtain ⟨rest, h | ⟨u, ⟨_, hkept⟩, rfl⟩⟩ := step_next_of_not_reset h hr
  · exact coreStep_requests h hn
  · exact .inl (hkept n hn)

end Sys2Proof.Machine
end

section
/-! PROOFS. The obligations on interrupt entry, on the return from it, and on a blocked processor (R830, R512, R845). -/

namespace Sys2Proof.Machine

open Sys2Proof

/-! ### A blocked processor (R845) -/

/-- Where the clear bits hold, a state with other events in its schedule has the same vector registers and buffers. -/
theorem keepsVector_setInputs {s : State} (h : clearBitsHold s) (rest : List Input) :
    KeepsVector s { s with inputs := rest } := by
  obtain ⟨h15, h14⟩ := h
  refine ⟨rfl, rfl, rfl, rfl, rfl, rfl, rfl, rfl, rfl, rfl, ?_, ?_⟩
  · change s.afifo = if s.psw 14 then [] else s.afifo
    split
    · next hb => exact h14 hb
    · rfl
  · change s.wfifo = if s.psw 15 then [] else s.wfifo
    split
    · next hb => exact h15 hb
    · rfl

/-- Settles O8: the processor's step does nothing, and what the other agents write is none of what is kept. -/
theorem stuckStays : Obligations.StuckStays := by
  intro s t hs hstuck hr h
  obtain ⟨rest, h | ⟨u, ⟨⟨_, _, _, _, _, _, _, rfl⟩, _⟩, rfl⟩⟩ := step_next_of_not_reset h hr
  · have hstay : coreStep { s with inputs := rest } = .next { s with inputs := rest } := if_pos hstuck
    obtain rfl : { s with inputs := rest } = t := by injection hstay.symm.trans h
    exact ⟨hstuck, rfl, fun _ => rfl, fun _ => rfl, rfl, keepsVector_setInputs hs.clear rest⟩
  · exact ⟨hstuck, rfl, fun _ => rfl, fun _ => rfl, rfl, .of_end rfl⟩

/-! ### Interrupt entry (R826, R830) -/

/-- The first enabled request of IntPriority is the one taken (R812, R826). -/
theorem State.interruptNow_first {s : State} {k : Fin 9} {before after : List (Fin 9)} (hp : s.pending = none)
    (hl : s.params.intPriority = before ++ k :: after)
    (hb : ∀ j ∈ before, s.ireq.getLsbD j = true → s.psw (j + 5) = true)
    (hk : s.ireq.getLsbD k = true) (hm : s.psw (k + 5) = false) : s.interruptNow = some k := by
  have hbefore : ∀ j ∈ before, (!s.enabledReq j) = true := by
    intro j hj
    rw [Bool.not_eq_true', ← Bool.not_eq_true, s.enabledReq_iff]
    rintro ⟨hreq, hmask⟩
    rw [hb j hj hreq] at hmask
    cases hmask
  have hfirst : s.nextReq = some k :=
    List.find?_eq_some_iff_append.mpr ⟨(s.enabledReq_iff k).mpr ⟨hk, hm⟩, before, after, hl, hbefore⟩
  rw [State.interruptNow, hp]
  exact hfirst

/-- The step of a processor that takes an interrupt. -/
theorem coreStep_eq_interruptStep {s : State} {k : Fin 9} (hs : s.stuck = false) (hi : s.interruptNow = some k) :
    coreStep s = s.interruptStep k := by
  simp only [coreStep, hs, hi, Bool.false_eq_true, if_false]

/-- With odd sp no interrupt can be taken: the frame is a 64-bit access (R206). -/
theorem State.interruptStep_of_odd {s : State} (k : Fin 9) (h : s.sp.odd = true) :
    s.interruptStep k = .refused .oddLongAddress := by
  rw [State.interruptStep, State.takeInterrupt, State.pushFrame, if_pos h]

theorem State.interruptStep_of_even {s : State} (k : Fin 9) (h : s.sp.odd = false) :
    ∃ t, s.takeInterrupt k = .ok t ∧ s.interruptStep k = .next t.clearFifos := by
  rw [State.interruptStep, State.takeInterrupt, State.pushFrame, h]
  exact ⟨_, rfl, rfl⟩

/-- The frame {pswr, ipc} that interrupt entry pushes, and nothing else in memory (R830, D6). -/
theorem State.takeInterrupt_frame {s t : State} {k : Fin 9} (h : s.takeInterrupt k = .ok t) :
    t.sp = s.sp + 2 ∧ wordStored s.sp s.ipc s t ∧ wordStored (s.sp + 1) s.pswr s t ∧ sameMemoryBut s.sp 2 s t := by
  obtain ⟨_, rfl⟩ := State.takeInterrupt_ok h
  have hlo := State.wordStored_write64_lo s s.sp (Long.ofHalves s.pswr s.ipc)
  have hhi := State.wordStored_write64_hi s s.sp (Long.ofHalves s.pswr s.ipc)
  rw [Long.lo_ofHalves] at hlo
  rw [Long.hi_ofHalves] at hhi
  exact ⟨State.ar_setAr_self .., hlo, hhi, State.byteAt_write64 s s.sp _⟩

/-- Interrupt entry writes memory, sp, ipc, pswr and the requests only. -/
theorem State.takeInterrupt_form {s t : State} {k : Fin 9} (h : s.takeInterrupt k = .ok t) :
    ∃ μ, t = { s.setAr 7 (s.sp + 2) with
      mem := μ
      ireq := s.ireq &&& ~~~(BitVec.twoPow 9 k)
      pswr := s.pswr ||| s.params.entryMask
      ipc := Config.intVector k } := by
  obtain ⟨_, rfl⟩ := State.takeInterrupt_ok h
  obtain ⟨μ, hμ⟩ := s.write64_form s.sp (Long.ofHalves s.pswr s.ipc)
  exact ⟨μ, by rw [hμ]; rfl⟩

/-- Interrupt entry leaves the vector registers; the clear bits act at its end (R58). -/
theorem State.takeInterrupt_keepsVector {s t : State} {k : Fin 9} (h : s.takeInterrupt k = .ok t) :
    KeepsVector s t.clearFifos := by
  obtain ⟨μ, rfl⟩ := State.takeInterrupt_form h
  exact ⟨rfl, rfl, rfl, rfl, rfl, rfl, rfl, rfl, rfl, rfl, rfl, rfl⟩

theorem State.takeInterrupt_keepsPeripherals {s t : State} {k : Fin 9} (h : s.takeInterrupt k = .ok t) :
    KeepsPeripherals s t.clearFifos := by
  obtain ⟨μ, rfl⟩ := State.takeInterrupt_form h
  exact ⟨rfl, rfl, rfl, rfl, rfl, rfl, rfl, rfl, rfl, rfl, rfl, rfl, rfl⟩

/-- Settles O6: the first enabled request is taken, and its entry pushes the frame, or is refused with odd sp. -/
theorem interruptEntry : Obligations.InterruptEntry := by
  intro s k before after hin hstuck hp hl hb hk hm
  have hstep : step s = s.interruptStep k :=
    calc step s = coreStep s := by rw [step, hin]
      _ = s.interruptStep k := coreStep_eq_interruptStep hstuck (State.interruptNow_first hp hl hb hk hm)
  refine ⟨fun ho => ?odd, fun ho => ?even⟩
  case odd => exact hstep.trans (State.interruptStep_of_odd k ho)
  case even =>
    obtain ⟨t, ht, hnext⟩ := State.interruptStep_of_even k ho
    obtain ⟨hsp, hret, hold, hmem⟩ := State.takeInterrupt_frame ht
    have hvector := State.takeInterrupt_keepsVector ht
    have hperipherals := State.takeInterrupt_keepsPeripherals ht
    obtain ⟨μ, rfl⟩ := State.takeInterrupt_form ht
    refine ⟨_, hstep.trans hnext, hret, hold, hmem, hsp, fun j hj => ?_, fun _ => rfl,
      getLsbD_clearRequest s.ireq k, rfl, rfl, hp, hvector, hperipherals⟩
    exact (State.ar_setAr ..).trans (if_neg (Ne.symm hj))

/-! ### The return from an interrupt (R512, R830) -/

/-- A return leaves the restored word in pswr, but for bits 25:20, which keep their value (R512): where those already are
as in that word, pswr is that word. -/
theorem pswr_eq_of_restored {t u : State} {v : Word}
    (h : ∀ n < 32, t.psw n = if 20 ≤ n ∧ n ≤ 25 then u.psw n else v.getLsbD n)
    (hcp : ∀ n, 20 ≤ n → n ≤ 25 → u.psw n = v.getLsbD n) : t.pswr = v := by
  apply BitVec.eq_of_getLsbD_eq
  intro n hn
  refine (h n hn).trans ?_
  split
  · next hb => exact hcp n hb.1 hb.2
  · rfl

/-- Settles O7: `ireturn` reads back the two words that interrupt entry stored. -/
theorem interruptReturn : Obligations.InterruptReturn := by
  intro s t u k ht hlo hhi hparams husp hword hword' hcp hp
  obtain ⟨heven, _⟩ := State.takeInterrupt_ok ht
  obtain ⟨hsp, hret, hold, _⟩ := State.takeInterrupt_frame ht
  have husp : u.sp = s.sp + 2 := husp.trans hsp
  have hback : u.sp - 2 = s.sp := by rw [husp, BitVec.add_sub_cancel]
  have huodd : u.sp.odd = false := by rw [husp, Word.odd_add_two, heven]
  have hbacked : ∀ a, u.backed a = s.backed a := fun a => by rw [State.backed, hparams, State.backed]
  obtain ⟨hreadIpc, hreadPswr⟩ := State.read64_halves (s := u) 65 ((hbacked _).trans hlo) ((hbacked _).trans hhi)
  rw [hword, hret, if_pos hlo] at hreadIpc
  rw [hword', hold, if_pos hhi] at hreadPswr
  obtain ⟨v, hv, hipc, hvsp, _, hpswr, _⟩ := iret_row u false .always .nul rfl huodd rfl nofun hp
  rw [hback, hreadIpc] at hipc
  rw [hback, hreadPswr] at hpswr
  exact ⟨v, hv, hipc, pswr_eq_of_restored hpswr hcp, hvsp.trans hback⟩

end Sys2Proof.Machine
end
